-- ==== Sys2Proof/Word.lean ====
section
/-! DEFINITION. The plainest types: bytes, axes, measuring points, directions of travel, and small fixed
families of like things (six axes, two points) held as structures with a place for each. -/

namespace Sys2Proof

/-- A byte of a frame (R184, R202). -/
abbrev Byte := BitVec 8

/-- An interferometer axis, FC0 to FC5 (00_scope.md, Block overview). -/
abbrev Axis := Fin 6

/-- A phase value in counts, 0 to 1023 (00_scope.md, Conventions; R4). -/
abbrev Phase := Fin 1024

/-- A measuring point, MP0 or MP1 (00_scope.md, Block overview). -/
inductive Point where
  | mp0
  | mp1
  deriving DecidableEq, Repr

/-- The point that is not `p`. -/
def Point.other : Point → Point
  | .mp0 => .mp1
  | .mp1 => .mp0

/-- FORWARD is motion toward increasing X (R50). A point's direction NONE is `none : Option Travel`. -/
inductive Travel where
  | forward
  | reverse
  deriving DecidableEq, Repr

/-- One thing for each measuring point. -/
structure Pair (α : Type) where
  mp0 : α
  mp1 : α
  deriving DecidableEq, Repr

/-- The thing of point `p`. -/
def Pair.get {α : Type} (v : Pair α) : Point → α
  | .mp0 => v.mp0
  | .mp1 => v.mp1

/-- `v` with the thing of point `p` replaced. -/
def Pair.set {α : Type} (v : Pair α) (p : Point) (x : α) : Pair α :=
  match p with
  | .mp0 => { v with mp0 := x }
  | .mp1 => { v with mp1 := x }

/-- One thing for each of the six axes. -/
structure Axes (α : Type) where
  a0 : α
  a1 : α
  a2 : α
  a3 : α
  a4 : α
  a5 : α
  deriving DecidableEq, Repr

/-- The thing of axis `a`. -/
def Axes.get {α : Type} (v : Axes α) (a : Axis) : α :=
  match a with
  | 0 => v.a0
  | 1 => v.a1
  | 2 => v.a2
  | 3 => v.a3
  | 4 => v.a4
  | 5 => v.a5

/-- The family whose thing of axis `a` is `f a`. -/
def Axes.ofFn {α : Type} (f : Axis → α) : Axes α :=
  ⟨f 0, f 1, f 2, f 3, f 4, f 5⟩

/-- `v` with the thing of axis `a` replaced. -/
def Axes.set {α : Type} (v : Axes α) (a : Axis) (x : α) : Axes α :=
  match a with
  | 0 => { v with a0 := x }
  | 1 => { v with a1 := x }
  | 2 => { v with a2 := x }
  | 3 => { v with a3 := x }
  | 4 => { v with a4 := x }
  | 5 => { v with a5 := x }

/-- The same thing for every axis. -/
def Axes.all {α : Type} (x : α) : Axes α := ⟨x, x, x, x, x, x⟩

/-- The six things in order of axis. -/
def Axes.toList {α : Type} (v : Axes α) : List α := [v.a0, v.a1, v.a2, v.a3, v.a4, v.a5]

/-- The sum over the six axes (R48, R49, R54). -/
def sumAxes (f : Axis → Int) : Int := f 0 + f 1 + f 2 + f 3 + f 4 + f 5

/-- Whether `f` holds of some axis. -/
def anyAxis (f : Axis → Bool) : Bool := f 0 || f 1 || f 2 || f 3 || f 4 || f 5

end Sys2Proof
end

