-- ==== Sys2Proof/Syntax.lean ====
section
/-! DEFINITION. The commands: one constructor for each row of spec/opcode_table.json, in the table's order. A request
carries the raw fields of its frame, at the widths of R192 and R203 (log 12). -/

namespace Sys2Proof

/-- The moments of a transaction at which the port acts (R184, R185, R191; log 8). -/
inductive FetchMoment where
  /-- CS_N falls and a transaction begins, whatever it turns out to carry (R185). -/
  | fall
  /-- The L byte of a FETCH completes (R191). -/
  | lByte
  /-- SCK runs on after the frame's last bit, whatever frame it is: `sdi` are the levels of SDI at the rising edges (R184). -/
  | runOn (sdi : List Bool)
  /-- CS_N rises and ends a FETCH; `sdi` are the levels of SDI at the rising edges of SCK after its L byte (R191). -/
  | rise (sdi : List Bool)
  deriving DecidableEq, Repr

/-- The commands of the block. -/
inductive Instr where
  /-- RESET_N low and released (R25); the input lines keep their levels (R199; log 19). -/
  | powerOnReset
  /-- One phase sample: six phases, six SIGOK levels, the REFOK level (R4). -/
  | phaseSample (phases : Axes Phase) (sigok : Axes Bool) (refok : Bool)
  /-- A leading edge on the point's strobe line (R52, R56). -/
  | strobeLeadingEdge (p : Point)
  /-- A trailing edge, with the number of CLKIN periods at which the pulse was sampled active (R52, R57, R58; log 4). -/
  | strobeTrailingEdge (p : Point) (active : Nat)
  /-- The Wm-th active period of an EDGE-mode pulse (R57). -/
  | strobeCompletion (p : Point)
  /-- The 1 µs of the trigger pulse runs out (R114). -/
  | triggerPulseEnd (p : Point)
  /-- The millisecond tick (R155). -/
  | millisecondTick
  /-- The tick at which the count is 0 (R155, R158). -/
  | expiry
  /-- The rise of CS_N that ends a transaction from which no request is taken: `sdi` are the levels of SDI at its rising
  edges of SCK, in order (R184 to R186). -/
  | frameDiscarded (sdi : List Bool)
  /-- A moment of a transaction (R185, R191). A command that ends a transaction stands for the whole of it when none is under
  way (log 8). -/
  | fetch (m : FetchMoment)
  | configureAxis (axis fitted : Byte) (wavelength : BitVec 32) (fold invert drop : Byte)
  | presetAxis (axis : Byte) (value : BitVec 48)
  | readAxes
  | supplyMedium (generation : BitVec 16) (mask : Byte) (w : Axes (BitVec 32))
  | setCommitPolicy (hp panic stale : Byte) (guard : BitVec 32) (hold : Byte)
  | forceCommit
  | setTimer (select : Byte) (period count : BitVec 16) (enable : Byte)
  | configurePoint (point enabled : Byte) (coeffs : Axes (BitVec 32)) (mode : Byte)
      (tau width hyst : BitVec 16) (lead : BitVec 32)
  | startScan (point : Byte) (first last : BitVec 16) (stride : Byte)
  | stopScan (point : Byte)
  | acknowledgeHalt (point : Byte)
  | loadEntry (point : Byte) (key : BitVec 16) (nominal : BitVec 48) (halfWidth : BitVec 32) (hold trigger : Byte)
  | amendEntry (point : Byte) (key : BitVec 16) (nominal : BitVec 48) (halfWidth : BitVec 32) (hold trigger : Byte)
  | clearEntry (point : Byte) (key : BitVec 16)
  | retireEntries (point : Byte) (first last : BitVec 16)
  | lookupEntry (point : Byte) (key : BitVec 16)
  | sweepEntries (point : Byte) (start : BitVec 16)
  | readStatus (clear : Byte)
  | takeNotices (mask : BitVec 16)
  | setRoutes (routes : BitVec 24)
  | restart
  /-- The grant of the waiting LOAD ENTRY's access (R86), and so for the six that follow. -/
  | loadEntryAccess
  | amendEntryAccess
  | clearEntryAccess
  | retireStep
  | lookupEntryAccess
  | sweepStep
  | restartAccess
  /-- A grant to the pass evaluator (R134). -/
  | evaluatorAccess
  /-- The completion of the evaluator's access (R133). -/
  | evaluatorAccessComplete
  /-- The completion of an executor access (R130, R143, R189). -/
  | executorAccessComplete
  deriving DecidableEq, Repr

end Sys2Proof
end

