-- ==== Sys2Proof/WellFormed.lean ====
section
/-! DEFINITION. Which commands are well formed. Every operand of a fixed width is well formed by its type, and every sequence of
levels on SDI is one that a host can send (R184); the one operand that is a number without a width is checked here. -/

namespace Sys2Proof

/-- A pulse that ends was sampled active at its leading edge at least (R57). -/
def Instr.wellFormed : Instr → Bool
  | .strobeTrailingEdge _ active => decide (1 ≤ active)
  | _ => true

end Sys2Proof
end

