-- ==== Sys2Proof/Decode.lean ====
section
/-! DEFINITION. Reading request frames (R186, R192, R200, R203) and writing them, and the host's fixed name
`decodeTableWord`. Everything is structural recursion over lists of bits and bytes. -/

namespace Sys2Proof

/-! ### Bits on the wires (R184) -/

/-- The bits of a byte as they cross the port, most significant first (R184). -/
def byteBits (b : Byte) : List Bool :=
  [b.getLsbD 7, b.getLsbD 6, b.getLsbD 5, b.getLsbD 4, b.getLsbD 3, b.getLsbD 2, b.getLsbD 1, b.getLsbD 0]

/-- The bits of bytes in order. -/
def bitsOf : List Byte → List Bool
  | [] => []
  | b :: bs => byteBits b ++ bitsOf bs

/-- The number that bits spell, most significant first, after the number `acc`. -/
def bitsNat : Nat → List Bool → Nat
  | acc, [] => acc
  | acc, b :: bs => bitsNat (2 * acc + b.toNat) bs

/-- The complete bytes among the levels sampled at the rising edges of SCK: a byte is complete at its eighth bit, and the bits
of one left incomplete are ignored (R184). -/
def completeBytes : List Bool → List Byte
  | b7 :: b6 :: b5 :: b4 :: b3 :: b2 :: b1 :: b0 :: rest =>
    BitVec.ofNat 8 (bitsNat 0 [b7, b6, b5, b4, b3, b2, b1, b0]) :: completeBytes rest
  | _ => []

/-! ### Fields -/

/-- The number a little-endian field holds (R200). -/
def leNat : List Byte → Nat
  | [] => 0
  | b :: bs => b.toNat + 256 * leNat bs

/-- The `n` bytes of a little-endian field that holds `v`, two's complement when `v` is negative (R200, R201). -/
def leBytes : Nat → Int → List Byte
  | 0, _ => []
  | n + 1, v => BitVec.ofInt 8 v :: leBytes n (v / 256)

/-- The field of `n` bytes at offset `off`, as `w` bits. -/
def fieldAt (w n : Nat) (bs : List Byte) (off : Nat) : BitVec w :=
  BitVec.ofNat w (leNat ((bs.drop off).take n))

/-- One-byte, two-byte, three-byte, four-byte and six-byte fields. -/
def u8 (bs : List Byte) (off : Nat) : BitVec 8 := fieldAt 8 1 bs off
def u16 (bs : List Byte) (off : Nat) : BitVec 16 := fieldAt 16 2 bs off
def u24 (bs : List Byte) (off : Nat) : BitVec 24 := fieldAt 24 3 bs off
def u32 (bs : List Byte) (off : Nat) : BitVec 32 := fieldAt 32 4 bs off
def u48 (bs : List Byte) (off : Nat) : BitVec 48 := fieldAt 48 6 bs off

/-- Six four-byte fields, axis 0 first, from offset `off` (R203). -/
def u32s (bs : List Byte) (off : Nat) : Axes (BitVec 32) :=
  ⟨u32 bs off, u32 bs (off + 4), u32 bs (off + 8), u32 bs (off + 12), u32 bs (off + 16), u32 bs (off + 20)⟩

/-- The bytes of a bit vector as a field of `n` bytes. -/
def bytesOf {w : Nat} (n : Nat) (v : BitVec w) : List Byte := leBytes n v.toNat

/-! ### Request frames -/

/-- The parameter length L a request code requires, or nothing for a code that is no request's (R192, R203). -/
def requestLength (code : Nat) : Option Nat :=
  match code with
  | 0x00 => some 0
  | 0x01 => some 9
  | 0x02 => some 7
  | 0x03 => some 0
  | 0x04 => some 27
  | 0x05 => some 8
  | 0x06 => some 0
  | 0x07 => some 6
  | 0x10 => some 37
  | 0x11 => some 6
  | 0x12 => some 1
  | 0x13 => some 1
  | 0x20 => some 15
  | 0x21 => some 15
  | 0x22 => some 3
  | 0x23 => some 5
  | 0x24 => some 3
  | 0x25 => some 3
  | 0x30 => some 1
  | 0x31 => some 2
  | 0x32 => some 3
  | 0x3F => some 0
  | _ => none

/-- The request of a code other than FETCH's, its fields read from its parameter bytes at the offsets of R203. -/
def requestOf (code : Nat) (ps : List Byte) : Option Instr :=
  match code with
  | 0x01 => some (.configureAxis (u8 ps 0) (u8 ps 1) (u32 ps 2) (u8 ps 6) (u8 ps 7) (u8 ps 8))
  | 0x02 => some (.presetAxis (u8 ps 0) (u48 ps 1))
  | 0x03 => some .readAxes
  | 0x04 => some (.supplyMedium (u16 ps 0) (u8 ps 2) (u32s ps 3))
  | 0x05 => some (.setCommitPolicy (u8 ps 0) (u8 ps 1) (u8 ps 2) (u32 ps 3) (u8 ps 7))
  | 0x06 => some .forceCommit
  | 0x07 => some (.setTimer (u8 ps 0) (u16 ps 1) (u16 ps 3) (u8 ps 5))
  | 0x10 => some (.configurePoint (u8 ps 0) (u8 ps 1) (u32s ps 2) (u8 ps 26) (u16 ps 27) (u16 ps 29) (u16 ps 31)
      (u32 ps 33))
  | 0x11 => some (.startScan (u8 ps 0) (u16 ps 1) (u16 ps 3) (u8 ps 5))
  | 0x12 => some (.stopScan (u8 ps 0))
  | 0x13 => some (.acknowledgeHalt (u8 ps 0))
  | 0x20 => some (.loadEntry (u8 ps 0) (u16 ps 1) (u48 ps 3) (u32 ps 9) (u8 ps 13) (u8 ps 14))
  | 0x21 => some (.amendEntry (u8 ps 0) (u16 ps 1) (u48 ps 3) (u32 ps 9) (u8 ps 13) (u8 ps 14))
  | 0x22 => some (.clearEntry (u8 ps 0) (u16 ps 1))
  | 0x23 => some (.retireEntries (u8 ps 0) (u16 ps 1) (u16 ps 3))
  | 0x24 => some (.lookupEntry (u8 ps 0) (u16 ps 1))
  | 0x25 => some (.sweepEntries (u8 ps 0) (u16 ps 1))
  | 0x30 => some (.readStatus (u8 ps 0))
  | 0x31 => some (.takeNotices (u16 ps 0))
  | 0x32 => some (.setRoutes (u24 ps 0))
  | 0x3F => some .restart
  | _ => none

/-- What the port finds a transaction to be at the rise of CS_N, before it looks at the link state (R185, R186). -/
inductive FrameJudgement where
  /-- One byte or none: a status read, which carries no request (R185). -/
  | statusRead
  /-- An unknown code or a wrong L (R186 step 1). -/
  | malformed
  /-- Fewer than L parameter bytes (R186 step 2). -/
  | short
  /-- A whole frame, FETCH among them (R186 steps 3 to 5). -/
  | request (i : Instr)
  deriving DecidableEq, Repr

/-- Steps 1 to 3 of R186, on the levels of SDI in a transaction. What follows the L-th parameter byte is ignored (R184); a FETCH keeps
it, for how many rising edges of SCK it had (R191). -/
def judgeFrame (sdi : List Bool) : FrameJudgement :=
  match completeBytes sdi with
  | [] => .statusRead
  | [_] => .statusRead
  | code :: l :: rest =>
    match requestLength code.toNat with
    | none => .malformed
    | some n =>
      if l.toNat ≠ n then .malformed
      else if rest.length < n then .short
      else if code.toNat = 0 then .request (.fetch (.rise (sdi.drop 16)))
      else
        match requestOf code.toNat (rest.take n) with
        | some i => .request i
        | none => .malformed

/-- What SDI carries in the transaction of a request: code, L, parameters (R202, R203). The other commands are no requests and
have none. -/
def encodeFrame : Instr → Option (List Bool)
  | .fetch (.rise sdi) => some (bitsOf [0x00, 0] ++ sdi)
  | .fetch .fall => none
  | .fetch .lByte => none
  | .fetch (.runOn _) => none
  | .configureAxis axis fitted wavelength fold invert drop =>
    some (bitsOf (0x01 :: 9 :: bytesOf 1 axis ++ bytesOf 1 fitted ++ bytesOf 4 wavelength ++ bytesOf 1 fold
      ++ bytesOf 1 invert ++ bytesOf 1 drop))
  | .presetAxis axis value => some (bitsOf (0x02 :: 7 :: bytesOf 1 axis ++ bytesOf 6 value))
  | .readAxes => some (bitsOf [0x03, 0])
  | .supplyMedium generation mask w =>
    some (bitsOf (0x04 :: 27 :: bytesOf 2 generation ++ bytesOf 1 mask ++ bytesOf 4 w.a0 ++ bytesOf 4 w.a1 ++ bytesOf 4 w.a2
      ++ bytesOf 4 w.a3 ++ bytesOf 4 w.a4 ++ bytesOf 4 w.a5))
  | .setCommitPolicy hp panic stale guard hold =>
    some (bitsOf (0x05 :: 8 :: bytesOf 1 hp ++ bytesOf 1 panic ++ bytesOf 1 stale ++ bytesOf 4 guard ++ bytesOf 1 hold))
  | .forceCommit => some (bitsOf [0x06, 0])
  | .setTimer select period count enable =>
    some (bitsOf (0x07 :: 6 :: bytesOf 1 select ++ bytesOf 2 period ++ bytesOf 2 count ++ bytesOf 1 enable))
  | .configurePoint point enabled c mode tau width hyst lead =>
    some (bitsOf (0x10 :: 37 :: bytesOf 1 point ++ bytesOf 1 enabled ++ bytesOf 4 c.a0 ++ bytesOf 4 c.a1 ++ bytesOf 4 c.a2
      ++ bytesOf 4 c.a3 ++ bytesOf 4 c.a4 ++ bytesOf 4 c.a5 ++ bytesOf 1 mode ++ bytesOf 2 tau ++ bytesOf 2 width
      ++ bytesOf 2 hyst ++ bytesOf 4 lead))
  | .startScan point first last stride =>
    some (bitsOf (0x11 :: 6 :: bytesOf 1 point ++ bytesOf 2 first ++ bytesOf 2 last ++ bytesOf 1 stride))
  | .stopScan point => some (bitsOf (0x12 :: 1 :: bytesOf 1 point))
  | .acknowledgeHalt point => some (bitsOf (0x13 :: 1 :: bytesOf 1 point))
  | .loadEntry point key nominal halfWidth hold trigger =>
    some (bitsOf (0x20 :: 15 :: bytesOf 1 point ++ bytesOf 2 key ++ bytesOf 6 nominal ++ bytesOf 4 halfWidth
      ++ bytesOf 1 hold ++ bytesOf 1 trigger))
  | .amendEntry point key nominal halfWidth hold trigger =>
    some (bitsOf (0x21 :: 15 :: bytesOf 1 point ++ bytesOf 2 key ++ bytesOf 6 nominal ++ bytesOf 4 halfWidth
      ++ bytesOf 1 hold ++ bytesOf 1 trigger))
  | .clearEntry point key => some (bitsOf (0x22 :: 3 :: bytesOf 1 point ++ bytesOf 2 key))
  | .retireEntries point first last => some (bitsOf (0x23 :: 5 :: bytesOf 1 point ++ bytesOf 2 first ++ bytesOf 2 last))
  | .lookupEntry point key => some (bitsOf (0x24 :: 3 :: bytesOf 1 point ++ bytesOf 2 key))
  | .sweepEntries point start => some (bitsOf (0x25 :: 3 :: bytesOf 1 point ++ bytesOf 2 start))
  | .readStatus clear => some (bitsOf (0x30 :: 1 :: bytesOf 1 clear))
  | .takeNotices mask => some (bitsOf (0x31 :: 2 :: bytesOf 2 mask))
  | .setRoutes routes => some (bitsOf (0x32 :: 3 :: bytesOf 3 routes))
  | .restart => some (bitsOf [0x3F, 0])
  | .powerOnReset => none
  | .phaseSample _ _ _ => none
  | .strobeLeadingEdge _ => none
  | .strobeTrailingEdge _ _ => none
  | .strobeCompletion _ => none
  | .triggerPulseEnd _ => none
  | .millisecondTick => none
  | .expiry => none
  | .frameDiscarded _ => none
  | .loadEntryAccess => none
  | .amendEntryAccess => none
  | .clearEntryAccess => none
  | .retireStep => none
  | .lookupEntryAccess => none
  | .sweepStep => none
  | .restartAccess => none
  | .evaluatorAccess => none
  | .evaluatorAccessComplete => none
  | .executorAccessComplete => none

/-- The command a word spells by the bits of spec/opcode_table.json. No row of the table gives bits, so no word spells
a command (log 1). -/
def decodeTableWord (_nbits _w : Nat) : Option Instr := none

end Sys2Proof
end

