-- ==== Sys2Proof/Config.lean ====
section
/-! DEFINITION. The fixed numbers of the part, each from the rule named, and the one free value: what SDO does in a
transaction that the port ignores. -/

namespace Sys2Proof.Config

/-- The end of the count range, 2^39 − 1 (00_scope.md, Counts; R2). -/
abbrev countMax : Int := 549755813887

/-- The end of the position range, 2^47 − 1 pm (00_scope.md, Lengths; R29, R48). -/
abbrev posMax : Int := 140737488355327

/-- The greatest step magnitude that is accepted (R8). -/
abbrev stepLimit : Int := 384

/-- The greatest number of steps in a velocity history (R10). -/
abbrev historyLength : Nat := 16

/-- The end of a W's range, in 10^−10 (R27, R31). -/
abbrev wMax : Int := 20000000

/-- The slots of the line table, 0 to 2047 (R71). -/
abbrev slotCount : Nat := 2048

/-- The records a pass queue holds (R124). -/
abbrev queueLength : Nat := 2

/-- The half-width's range in pm (R73, R85). -/
abbrev halfWidthMin : Nat := 1000
abbrev halfWidthMax : Nat := 1000000000

/-- The end of the guard distance's and of the trigger lead's range in pm (R154, 03 section 3.2). -/
abbrev distanceMax : Nat := 100000000

/-- The greatest strobe delay τ and minimum strobe width in ns (03 section 3.2). -/
abbrev tauMax : Nat := 4000
abbrev widthMax : Nat := 3000

/-- The most evaluator grants an executor access waits through (R141, R142). -/
abbrev waitLimit : Nat := 4

/-- The most records one sweep returns (R95). -/
abbrev sweepMax : Nat := 8

/-- CLKIN periods of a table access (100 ns, R130), of a trigger pulse (1 µs, R114) and of a millisecond (R155). -/
abbrev accessPeriods : Nat := 8
abbrev triggerPeriods : Nat := 80
abbrev millisecondPeriods : Nat := 80000

/-- The vacuum wavelength's range and its power-on value in fm (01 section 1.8). -/
abbrev lambdaMin : Nat := 400000000
abbrev lambdaMax : Nat := 1100000000
abbrev lambdaReset : Nat := 632991212

/-- Q and Kc of every axis after power-on, in 2^−32 pm per count (R42). -/
abbrev scaleReset : Int := 663739393114

/-! ### Free values -/

/-- What SDO does in the `n`-th transaction that the port ignores: it is high-impedance, or it is driven and carries these levels,
one for each rising edge of SCK. R184 has SDO driven while CS_N is low, R199 has it high-impedance after power-on and the
transaction ignored, and no rule gives what it would carry (log 24). -/
opaque ignoredSdo : (n : Nat) → Option (List Bool)

end Sys2Proof.Config
end

