-- ==== Sys2Proof/Machine/State.lean ====
section
/-! DEFINITION. The state of the part as plain data, with a field for every piece of state the manual names, and its
value after power-on. Quantities the manual also names but that follow from others are held once (log 11). -/

namespace Sys2Proof.Machine

/-- No command stops the part: the manual answers every error with a status, a count or a change of state. Nothing
raises a fault, so the type has no constructor. -/
inductive Fault
  deriving DecidableEq, Repr

/-- Why a command has no meaning in the model. -/
inductive Refusal where
  /-- Raised by `exec` alone, for a row whose meaning is not written yet. Safe: the run stops. -/
  | notModelled (mnemonic : String)
  deriving DecidableEq, Repr

/-! ### Fringe channels (01, R2) -/

/-- R3. -/
inductive ChannelState where
  | off
  | relative
  | tracking
  | lost
  deriving DecidableEq, Repr

/-- Why a channel entered LOST (R15). -/
inductive LostCause where
  | none
  | rate
  | range
  | dropout
  deriving DecidableEq, Repr

/-- One fringe channel (R2). Vel is the sum of `history` (R10). Q and Kc are in 2^−32 pm per count (R26, R27). -/
structure Channel where
  state : ChannelState
  lostCause : LostCause
  count : Int
  lastPhase : Option Phase
  hold : Nat
  history : List Int
  dropouts : Nat
  sigok : Bool
  fitted : Bool
  wavelength : Nat
  fold : Nat
  invert : Bool
  dropLimit : Nat
  q : Int
  kc : Int
  deriving DecidableEq, Repr

/-- A channel after power-on (R25, R42). -/
def Channel.reset : Channel where
  state := .off
  lostCause := .none
  count := 0
  lastPhase := none
  hold := 0
  history := []
  dropouts := 0
  sigok := false
  fitted := false
  wavelength := Config.lambdaReset
  fold := 2
  invert := false
  dropLimit := 40
  q := Config.scaleReset
  kc := Config.scaleReset

/-! ### Compensation unit (02, R30; 07, R154) -/

/-- The pending set (R30). -/
structure MediumSet where
  w : Axes Int
  generation : Nat
  deriving DecidableEq, Repr

/-- The kind of the most recent commit (R154). -/
inductive CommitKind where
  | none
  | opportunistic
  | hp
  | panic
  deriving DecidableEq, Repr

/-- The medium state of R30, the scheduling state of R154, and the divider from CLKIN to the millisecond (R155). -/
structure Cu where
  activeW : Axes Int
  activeGeneration : Nat
  pendingSet : Option MediumSet
  debt : Nat
  age : Nat
  stale : Bool
  timerCount : Nat
  timerPeriod : Nat
  timerEnable : Bool
  staleLimit : Nat
  hpMark : Nat
  panicMark : Nat
  guard : Nat
  commitHold : Bool
  lastCommit : CommitKind
  msPeriods : Nat
  deriving DecidableEq, Repr

/-- The compensation unit after power-on (R42, R172). -/
def Cu.reset : Cu where
  activeW := .all 0
  activeGeneration := 0
  pendingSet := none
  debt := 0
  age := 0
  stale := false
  timerCount := 999
  timerPeriod := 999
  timerEnable := false
  staleLimit := 120
  hpMark := 4
  panicMark := 8
  guard := 20000000
  commitHold := false
  lastCommit := .none
  msPeriods := 0

/-! ### Measuring points (03, R43; 05, R100) -/

/-- R44. -/
inductive RunState where
  | disabled
  | idle
  | scanning
  | halted
  | suspended
  deriving DecidableEq, Repr

/-- Why a point last entered SUSPENDED (R64). -/
inductive SuspendCause where
  | none
  | axisLost
  | range
  deriving DecidableEq, Repr

/-- R52. -/
inductive StrobeMode where
  | edgeRise
  | edgeFall
  | centreHigh
  | centreLow
  deriving DecidableEq, Repr

/-- The settings of CONFIGURE POINT (03 section 3.2): coefficients in 2^−20, τ and width in ns, h in pm per 800 ns,
lead in pm. -/
structure PointConfig where
  enabled : Bool
  coeffs : Axes Int
  mode : StrobeMode
  tau : Nat
  width : Nat
  hyst : Nat
  lead : Nat
  deriving DecidableEq, Repr

/-- The strobe tracker (R53). QUALIFYING holds the latched position (X_line in EDGE modes, XL in CENTRE modes, R56)
and the CLKIN periods the block's clock has sampled active so far, the edge's own first (R57; log 4). -/
inductive Tracker where
  | noPulse
  | qualifying (latched : Int) (active : Nat)
  | settling
  deriving DecidableEq, Repr

/-- A side of a window (R116, R119). -/
inductive Side where
  | low
  | high
  deriving DecidableEq, Repr

/-- The outcome of a pass (R121). MATCHED carries a length: its X_line in a pass record (R122), its deviation in an
entry's last pass (R75, R135). -/
inductive Outcome where
  | matched (length : Int)
  | missed
  | jumped
  | returned
  | multiple
  | incomplete
  | split
  | axisLost
  | aborted
  deriving DecidableEq, Repr

/-- A closed pass record (R122). -/
structure PassRecord where
  slot : Nat
  revision : Nat
  direction : Travel
  outcome : Outcome
  stale : Bool
  deriving DecidableEq, Repr

/-- An open pass record (R116). Its strobe is in progress while the tracker is QUALIFYING (R56). -/
structure OpenPass where
  slot : Nat
  revision : Nat
  entrySide : Side
  direction : Travel
  tally : Nat
  firstX : Option Int
  split : Bool
  deriving DecidableEq, Repr

/-- A copy of the designated entry's index item (R100). -/
structure Designation where
  slot : Nat
  key : Nat
  revision : Nat
  lower : Int
  upper : Int
  trigger : Bool
  deriving DecidableEq, Repr

/-- The trigger point of an arming (R112). -/
structure TriggerPoint where
  position : Int
  fired : Bool
  deriving DecidableEq, Repr

/-- The cursor (R100, R101). The designation and the arming direction are present with ARMED and OPEN, the trigger
point with ARMED at most, the open pass record with OPEN. -/
inductive Cursor where
  | inactive
  | atEnd
  | armed (d : Designation) (dir : Travel) (trig : Option TriggerPoint)
  | opened (d : Designation) (dir : Travel) (pass : OpenPass)
  deriving DecidableEq, Repr

/-- The scan's key range and stride (R100). -/
structure Scan where
  first : Nat
  last : Nat
  stride : Nat
  deriving DecidableEq, Repr

/-- The five counters of a point (R67). -/
structure Counters where
  stray : Nat
  glitch : Nat
  heldStrobe : Nat
  overrunLost : Nat
  orphaned : Nat
  deriving DecidableEq, Repr

/-- One measuring point (R43, R100), with its strobe and trigger lines. `stb` is the level of the input line, `stbKept`
the level last sampled (R52). `trgLeft` counts the CLKIN periods left of the pulse on TRGn (R114). -/
structure MeasuringPoint where
  state : RunState
  cause : SuspendCause
  config : PointConfig
  x : Int
  prevX : Int
  vx : Int
  direction : Option Travel
  tracker : Tracker
  stb : Bool
  stbKept : Bool
  scan : Scan
  cursor : Cursor
  queue : List PassRecord
  counters : Counters
  trg : Bool
  trgLeft : Nat
  deriving DecidableEq, Repr

/-- All five counters at 0 (R67, R69). -/
def Counters.zero : Counters := ⟨0, 0, 0, 0, 0⟩

/-- A point after power-on, with its coefficients of the table of 03 section 3.2 (R69, R129). The levels of the strobe
line are the model's choice (log 5). -/
def MeasuringPoint.reset (coeffs : Axes Int) : MeasuringPoint where
  state := .disabled
  cause := .none
  config :=
    { enabled := false, coeffs := coeffs, mode := .edgeRise, tau := 0, width := 0, hyst := 200, lead := 0 }
  x := 0
  prevX := 0
  vx := 0
  direction := none
  tracker := .noPulse
  stb := false
  stbKept := false
  scan := { first := 0, last := 0, stride := 1 }
  cursor := .inactive
  queue := []
  counters := .zero
  trg := false
  trgLeft := 0

/-! ### Line table (04) -/

/-- The least and the greatest deviation of one direction (R74). -/
structure Extremes where
  min : Int
  max : Int
  deriving DecidableEq, Repr

/-- The statistics of one direction (R74). -/
structure DirStats where
  n : Nat
  sum : Int
  extremes : Option Extremes
  deriving DecidableEq, Repr

/-- The outcome and direction of the pass last applied (R75). -/
structure LastPass where
  outcome : Outcome
  direction : Travel
  deriving DecidableEq, Repr

/-- What the pass evaluator writes: statistics (R74) and results (R75). -/
structure Results where
  forward : DirStats
  reverse : DirStats
  missCount : Nat
  rejectCount : Nat
  passTotal : Nat
  lastPass : Option LastPass
  staleSeen : Bool
  saturated : Bool
  deriving DecidableEq, Repr

/-- The LOAD values (R86). -/
def Results.load : Results where
  forward := { n := 0, sum := 0, extremes := none }
  reverse := { n := 0, sum := 0, extremes := none }
  missCount := 0
  rejectCount := 0
  passTotal := 0
  lastPass := none
  staleSeen := false
  saturated := false

/-- An entry record: its definition (R73) and its results. -/
structure Entry where
  point : Point
  key : Nat
  nominal : Int
  halfWidth : Nat
  hold : Bool
  trigger : Bool
  results : Results
  deriving DecidableEq, Repr

/-- A slot: LIVE with an entry or FREE, and its definition revision (R71, R72). -/
structure Slot where
  revision : Nat
  entry : Option Entry
  deriving DecidableEq, Repr

/-- A slot after power-on (R98), and what a slot that `LineTable.slots` does not list is (log 21). -/
def Slot.blank : Slot := { revision := 0, entry := none }

/-- An item of a point's index (R80). -/
structure IndexItem where
  slot : Nat
  key : Nat
  revision : Nat
  lower : Int
  upper : Int
  hold : Bool
  trigger : Bool
  deriving DecidableEq, Repr

/-- The slot array as the pairs of number and slot that are not `Slot.blank`, numbers strictly rising (log 21), and one
index for each point, in key order (R80). -/
structure LineTable where
  slots : List (Nat × Slot)
  index : Pair (List IndexItem)
  deriving DecidableEq, Repr

/-! ### Table port (06) -/

/-- What occupies the table port (R130). -/
inductive Occupant where
  | free
  | evaluator
  | executor
  deriving DecidableEq, Repr

/-- The table port (R151): its occupant, the CLKIN periods left of the access (R130), and the wait count (R141). -/
structure TablePort where
  occupant : Occupant
  left : Nat
  waitCount : Nat
  deriving DecidableEq, Repr

/-! ### Notice unit (08) -/

/-- The ten event kinds (R173). -/
inductive EventKind where
  | axisLost
  | refLost
  | committed
  | panicCommit
  | mediumStale
  | entryMissed
  | pointHalted
  | pointSuspended
  | scanEnd
  | responseReady
  deriving DecidableEq, Repr

/-- One thing for each event kind. -/
structure Kinds (α : Type) where
  axisLost : α
  refLost : α
  committed : α
  panicCommit : α
  mediumStale : α
  entryMissed : α
  pointHalted : α
  pointSuspended : α
  scanEnd : α
  responseReady : α
  deriving DecidableEq, Repr

/-- A route: the lines a pending kind asserts (R175). -/
inductive Route where
  | nowhere
  | a
  | b
  | ab
  deriving DecidableEq, Repr

/-- The same thing for every kind. -/
def Kinds.all {α : Type} (x : α) : Kinds α := ⟨x, x, x, x, x, x, x, x, x, x⟩

/-- The notice unit's pending flags and routes (R173). -/
structure Notices where
  flags : Kinds Bool
  routes : Kinds Route
  deriving DecidableEq, Repr

/-! ### Request port (09) -/

/-- The status codes (R190). -/
inductive Status where
  | ok
  | clamped
  | notReady
  | badParam
  | noEntry
  | exist
  | full
  | order
  | inWindow
  | entryOpen
  | axisState
  | pointState
  deriving DecidableEq, Repr

/-- A response frame: a status and its data. Its length field is the number of data bytes (R190). -/
structure Response where
  status : Status
  data : List Byte
  deriving DecidableEq, Repr

/-- R183. -/
inductive LinkState where
  | idle
  | executing
  | ready
  deriving DecidableEq, Repr

/-- A table request in hand, its parameters already checked and clamped (R82). RETIRE ENTRIES and SWEEP ENTRIES keep
the least key still to be handled and what they have gathered (R91, R95). -/
inductive Job where
  | load (p : Point) (key : Nat) (nominal : Int) (halfWidth : Nat) (hold trigger clamped : Bool)
  | amend (p : Point) (key : Nat) (nominal : Int) (halfWidth : Nat) (hold trigger clamped : Bool)
  | clear (p : Point) (key : Nat)
  | retire (p : Point) (next last retired skipped : Nat)
  | lookup (p : Point) (key : Nat)
  | sweep (p : Point) (next copied : Nat) (records : List Byte)
  | restart
  deriving DecidableEq, Repr

/-- What the executor does when its access completes: place the answer (R189), or ask for the next access (R143). -/
inductive AfterAccess where
  | answer (r : Response)
  | ask (j : Job)
  deriving DecidableEq, Repr

/-- The request executor (R183): free, asking the table port for an access (R131), or inside one (R130). -/
inductive Executor where
  | free
  | waiting (j : Job)
  | accessing (next : AfterAccess)
  deriving DecidableEq, Repr

/-- What the L byte of the transaction under way has made of it (R191): no FETCH recognized so far, a FETCH answered
NOT_READY, or a FETCH that delivers the response that waited. -/
inductive Recognition where
  | undecided
  | notReady
  | delivers (r : Response)
  deriving DecidableEq, Repr

/-- The transaction on the port (R184, R185, R199): none with CS_N high; one under way with CS_N low, with the link status byte
taken at its fall, what its L byte has made of it, and the levels of SDI that have followed its frame; or one that the port
ignores, CS_N being low since before the release of RESET_N. -/
inductive Transfer where
  | high
  | low (status : Byte) (fetch : Recognition) (later : List Bool)
  | ignored
  deriving DecidableEq, Repr

/-- The request port (R183), with the transaction on it (R184, R185), and two fields of the model's own: what SDO carried in the
last transaction that ended, one level for each rising edge of SCK (log 10), and how many ignored transactions have ended,
which names the next one's free values (log 24). -/
structure RequestPort where
  link : LinkState
  slot : Option Response
  discarded : Bool
  discardedCount : Nat
  malformedCount : Nat
  executor : Executor
  transfer : Transfer
  sdo : List Bool
  ignoredCount : Nat
  deriving DecidableEq, Repr

/-! ### The whole part -/

/-- The state: the six channels, the axes as the most recent phase sample left them (R46), the axes that a phase sample of this very
moment put in LOST (R23, log 30), the recorded REFOK level, the compensation unit, the two points, the line table, the table port,
the pass evaluator's pointer (R132), the notice unit, the request port, and the commands that wait. -/
structure State where
  channels : Axes Channel
  sampled : Axes Channel
  lostNow : Axes Bool
  refok : Bool
  cu : Cu
  points : Pair MeasuringPoint
  table : LineTable
  port : TablePort
  pointer : Point
  notices : Notices
  req : RequestPort
  pending : List Instr
  deriving DecidableEq, Repr

/-- Power-on (R25, R42, R69, R98, R129, R151, R172, R181, R199): channels OFF, medium in vacuum, points DISABLED, table
empty, notices clear, link IDLE, CS_N high (log 19), and no command waiting. Before any phase sample the axes that one left
are those of power-on (log 27), and none has lost an axis (log 30). -/
def State.reset : State where
  channels := .all Channel.reset
  sampled := .all Channel.reset
  lostNow := .all false
  refok := false
  cu := Cu.reset
  points :=
    { mp0 := MeasuringPoint.reset ⟨1048576, 0, 0, 0, 0, 0⟩
      mp1 := MeasuringPoint.reset ⟨0, 1048576, 0, 0, 0, 0⟩ }
  table := { slots := [], index := { mp0 := [], mp1 := [] } }
  port := { occupant := .free, left := 0, waitCount := 0 }
  pointer := .mp0
  notices := { flags := .all false, routes := .all .nowhere }
  req :=
    { link := .idle, slot := none, discarded := false, discardedCount := 0, malformedCount := 0, executor := .free,
      transfer := .high, sdo := [], ignoredCount := 0 }
  pending := []

end Sys2Proof.Machine
end

