-- ==== Sys2Proof/Machine/Operands.lean ====
section
/-! DEFINITION. The arithmetic every chapter uses (R1, saturation, clamps), the reading of received fields (R200), and
the numbers by which sent fields name things (R201, R202). -/

namespace Sys2Proof.Machine

/-! ### Arithmetic -/

/-- round(n / d) for d above 0: to the nearest integer, halves away from zero (R1). -/
def roundDiv (n d : Int) : Int :=
  if 0 ≤ n then (2 * n + d) / (2 * d) else -((2 * -n + d) / (2 * d))

/-- `v` brought into `lo` to `hi`. -/
def clampInt (lo hi v : Int) : Int := if v < lo then lo else if hi < v then hi else v

/-- `v` brought into `lo` to `hi`. -/
def clampNat (lo hi v : Nat) : Nat := if v < lo then lo else if hi < v then hi else v

/-- A position saturated at ±(2^47−1) pm (R29, R48). -/
def saturate (v : Int) : Int := clampInt (-Config.posMax) Config.posMax v

/-- A counter that saturates at `cap`, raised by one (00_scope.md, Saturation). -/
def bump (cap n : Nat) : Nat := if n < cap then n + 1 else cap

/-- A 16-bit counter and an 8-bit counter raised by one. -/
def bump16 (n : Nat) : Nat := bump 65535 n
def bump8 (n : Nat) : Nat := bump 255 n

/-- A definition revision raised by one; it wraps from 65535 to 0 (R72). -/
def nextRevision (n : Nat) : Nat := if n < 65535 then n + 1 else 0

/-! ### Received fields (R200) -/

/-- A flag field is yes for any value but 0. -/
def flagOf (b : Byte) : Bool := decide (b ≠ 0)

/-- The point a point field names, nothing above 1. -/
def pointOf (b : Byte) : Option Point :=
  if b = 0 then some .mp0 else if b = 1 then some .mp1 else none

/-- The axis an axis field names, nothing above 5. -/
def axisOf (b : Byte) : Option Axis :=
  if h : b.toNat < 6 then some ⟨b.toNat, h⟩ else none

/-- The strobe mode a code field names, nothing for any other value. -/
def modeOf (b : Byte) : Option StrobeMode :=
  if b = 0 then some .edgeRise
  else if b = 1 then some .edgeFall
  else if b = 2 then some .centreHigh
  else if b = 3 then some .centreLow
  else none

/-- The route of a two-bit field (R201). -/
def routeOf (n : Nat) : Route :=
  if n = 0 then .nowhere else if n = 1 then .a else if n = 2 then .b else .ab

/-! ### Strobe settings -/

/-- A duration in ns as a whole number of CLKIN periods of 12.5 ns (R52, R54). -/
def clkPeriods (ns : Nat) : Int := roundDiv (2 * (ns : Int)) 25

/-- Wm, the minimum strobe width in CLKIN periods (R52). -/
def PointConfig.minPeriods (c : PointConfig) : Nat := (clkPeriods c.width).toNat

/-- The level at which the strobe line is active (R52). -/
def StrobeMode.activeLevel : StrobeMode → Bool
  | .edgeRise => true
  | .edgeFall => false
  | .centreHigh => true
  | .centreLow => false

/-- The CENTRE modes latch at both edges (R52). -/
def StrobeMode.isCentre : StrobeMode → Bool
  | .edgeRise => false
  | .edgeFall => false
  | .centreHigh => true
  | .centreLow => true

/-! ### Sent codes (R201, R202) -/

def boolBit (b : Bool) (bit : Nat) : Nat := if b then 2 ^ bit else 0

def ChannelState.code : ChannelState → Nat
  | .off => 0
  | .relative => 1
  | .tracking => 2
  | .lost => 3

def LostCause.code : LostCause → Nat
  | .none => 0
  | .rate => 1
  | .range => 2
  | .dropout => 3

def RunState.code : RunState → Nat
  | .disabled => 0
  | .idle => 1
  | .scanning => 2
  | .halted => 3
  | .suspended => 4

def SuspendCause.code : SuspendCause → Nat
  | .none => 0
  | .axisLost => 1
  | .range => 2

def travelCode : Travel → Nat
  | .forward => 1
  | .reverse => 2

/-- A direction, 0 for NONE. -/
def directionCode (d : Option Travel) : Nat := (d.map travelCode).getD 0

def Cursor.code : Cursor → Nat
  | .inactive => 0
  | .atEnd => 1
  | .armed _ _ _ => 2
  | .opened _ _ _ => 3

def Outcome.code : Outcome → Nat
  | .matched _ => 1
  | .missed => 2
  | .jumped => 3
  | .returned => 4
  | .multiple => 5
  | .incomplete => 6
  | .split => 7
  | .axisLost => 8
  | .aborted => 9

def CommitKind.code : CommitKind → Nat
  | .none => 0
  | .opportunistic => 1
  | .hp => 2
  | .panic => 3

def Route.code : Route → Nat
  | .nowhere => 0
  | .a => 1
  | .b => 2
  | .ab => 3

def LinkState.code : LinkState → Nat
  | .idle => 0
  | .executing => 1
  | .ready => 2

def Status.code : Status → Nat
  | .ok => 0x00
  | .clamped => 0x01
  | .notReady => 0x02
  | .badParam => 0x10
  | .noEntry => 0x11
  | .exist => 0x12
  | .full => 0x13
  | .order => 0x14
  | .inWindow => 0x15
  | .entryOpen => 0x16
  | .axisState => 0x17
  | .pointState => 0x18

def pointCode : Point → Nat
  | .mp0 => 0
  | .mp1 => 1

/-- The status of an accepted request: CLAMPED when a value was clamped (R190). -/
def acceptedStatus (clamped : Bool) : Status := if clamped then .clamped else .ok

/-- A response with a status and no data (R190). -/
def Response.plain (st : Status) : Response := { status := st, data := [] }

/-- The bytes of a response frame: status, 16-bit length, data (R190, R202). -/
def Response.frame (r : Response) : List Byte :=
  leBytes 1 r.status.code ++ leBytes 2 r.data.length ++ r.data

/-- The event kinds in order of their bits in the pending set (R201). -/
def EventKind.all : List EventKind :=
  [.axisLost, .refLost, .committed, .panicCommit, .mediumStale, .entryMissed, .pointHalted, .pointSuspended, .scanEnd,
    .responseReady]

/-- A kind's bit in the pending set and the clear mask; its route stands at twice this bit (R201). -/
def EventKind.bit : EventKind → Nat
  | .axisLost => 0
  | .refLost => 1
  | .committed => 2
  | .panicCommit => 3
  | .mediumStale => 4
  | .entryMissed => 5
  | .pointHalted => 6
  | .pointSuspended => 7
  | .scanEnd => 8
  | .responseReady => 9

end Sys2Proof.Machine
end

