-- ==== Sys2Proof/Machine/Ops.lean ====
section
/-! DEFINITION. The named operations over the state: one thing of a kind read and written, notices raised, responses
placed, slots and index items read and written, and the way a request passes through the port (R186, R189). -/

namespace Sys2Proof.Machine

/-! ### Points -/

/-- The point `p`. -/
def State.point (s : State) (p : Point) : MeasuringPoint := s.points.get p

/-- `s` with point `p` replaced. -/
def State.setPoint (s : State) (p : Point) (m : MeasuringPoint) : State :=
  { s with points := s.points.set p m }

/-! ### Notices (R173) -/

/-- The thing of kind `k`. -/
def Kinds.get {α : Type} (v : Kinds α) : EventKind → α
  | .axisLost => v.axisLost
  | .refLost => v.refLost
  | .committed => v.committed
  | .panicCommit => v.panicCommit
  | .mediumStale => v.mediumStale
  | .entryMissed => v.entryMissed
  | .pointHalted => v.pointHalted
  | .pointSuspended => v.pointSuspended
  | .scanEnd => v.scanEnd
  | .responseReady => v.responseReady

/-- The family whose thing of kind `k` is `f k`. -/
def Kinds.ofFn {α : Type} (f : EventKind → α) : Kinds α :=
  ⟨f .axisLost, f .refLost, f .committed, f .panicCommit, f .mediumStale, f .entryMissed, f .pointHalted,
    f .pointSuspended, f .scanEnd, f .responseReady⟩

/-- A block raises the event kind `k`: its flag is set, and stays set (R173). -/
def State.raise (s : State) (k : EventKind) : State :=
  { s with notices := { s.notices with flags := .ofFn fun j => s.notices.flags.get j || decide (j = k) } }

/-- Several raises; their order does not matter (R174). -/
def State.raiseAll (s : State) : List EventKind → State
  | [] => s
  | k :: ks => (s.raise k).raiseAll ks

/-- The raise of `k` when `b`. -/
def State.raiseIf (s : State) (b : Bool) (k : EventKind) : State := if b then s.raise k else s

/-- Clears the flag of `k`. -/
def State.clearNotice (s : State) (k : EventKind) : State :=
  { s with notices := { s.notices with flags := .ofFn fun j => s.notices.flags.get j && decide (j ≠ k) } }

/-- What a step of a point's logic gives: the point, and the event kinds it raises. -/
structure PointResult where
  point : MeasuringPoint
  events : List EventKind
  deriving DecidableEq, Repr

/-- A point that raises nothing. -/
def PointResult.quiet (m : MeasuringPoint) : PointResult := { point := m, events := [] }

/-- `s` with point `p` as the result left it and the result's events raised. -/
def State.takePoint (s : State) (p : Point) (r : PointResult) : State :=
  (s.setPoint p r.point).raiseAll r.events

/-! ### The request port (R186, R189) -/

/-- The link status byte: the link state in bits 1–0, the DISCARDED flag in bit 2 (R185, R202). -/
def RequestPort.statusByte (q : RequestPort) : Byte :=
  BitVec.ofNat 8 (q.link.code + boolBit q.discarded 2)

/-- A response is placed in the slot: the link becomes READY, the executor is free, RESPONSE_READY is raised
(R180, R189). -/
def State.place (s : State) (r : Response) : State :=
  { s with req := { s.req with slot := some r, link := .ready, executor := .free } }.raise .responseReady

/-- A short or busy request is discarded (R186, R187). -/
def State.discard (s : State) : State :=
  { s with req := { s.req with discarded := true, discardedCount := bump16 s.req.discardedCount } }

/-- A malformed frame is discarded (R186, R187). -/
def State.discardMalformed (s : State) : State :=
  { s with req := { s.req with discarded := true, malformedCount := bump16 s.req.malformedCount } }

/-- The link status byte of the transaction that ends: taken at its fall of CS_N (R185), or now for one that is a single event
(log 8). -/
def RequestPort.statusAtFall (q : RequestPort) : Byte :=
  match q.transfer with
  | .low status _ _ => status
  | .high => q.statusByte
  | .ignored => q.statusByte

/-- The levels of SDI that have followed the frame of the transaction under way (R184). -/
def RequestPort.later (q : RequestPort) : List Bool :=
  match q.transfer with
  | .low _ _ later => later
  | .high => []
  | .ignored => []

/-- What SDO carries in a transaction of `n` rising edges of SCK that is no FETCH: the link status byte, then zeros (R184). -/
def RequestPort.plainOut (q : RequestPort) (n : Nat) : List Bool :=
  (byteBits q.statusAtFall ++ List.replicate n false).take n

/-- CS_N rises and ends a transaction of `n` rising edges of SCK that is no FETCH (R184). -/
def State.shiftOut (s : State) (n : Nat) : State :=
  { s with req := { s.req with sdo := s.req.plainOut n, transfer := .high } }

/-- CS_N rises and ends an ignored transaction: nothing is judged, and what SDO did is a free value (R199; log 24). -/
def State.endIgnored (s : State) : State :=
  { s with
    req :=
      { s.req with
        sdo := (Config.ignoredSdo s.req.ignoredCount).getD [], transfer := .high
        ignoredCount := s.req.ignoredCount + 1 } }

/-- CS_N rises and ends a transaction, on which the port acts as `act` says unless it ignores the transaction (R199). -/
def State.endTransfer (s : State) (act : State → State) : State :=
  match s.req.transfer with
  | .high => act s
  | .low _ _ _ => act s
  | .ignored => s.endIgnored

/-- The rising edges of SCK in the transaction under way, its frame having `len` parameter bytes (R202). -/
def RequestPort.frameEdges (q : RequestPort) (len : Nat) : Nat := 8 * (len + 2) + q.later.length

/-- The rise of CS_N that ends a transaction of a whole request frame with `len` parameter bytes: busy, the request is discarded;
otherwise it is taken (R186 steps 4 and 5), and `act` carries it out. -/
def State.request (s : State) (len : Nat) (act : State → State) : State :=
  s.endTransfer fun t =>
    match t.req.link with
    | .idle => act (t.shiftOut (t.req.frameEdges len))
    | .executing => (t.shiftOut (t.req.frameEdges len)).discard
    | .ready => (t.shiftOut (t.req.frameEdges len)).discard

/-- A request that needs no table access is carried out wholly when it is taken, and its response is placed at the same
moment (R189). `act` answers the status of a refusal, or the state and the response of an accepted request. -/
def State.serve (s : State) (len : Nat) (act : State → Except Status (State × Response)) : State :=
  s.request len fun t =>
    match act t with
    | .error st => t.place (.plain st)
    | .ok (t', r) => t'.place r

/-- A request that needs the table: refused by its parameters it is answered at once, otherwise the link is EXECUTING and
the executor asks for its first access (R82, R189). -/
def State.serveTable (s : State) (len : Nat) (check : Except Status Job) : State :=
  s.request len fun t =>
    match check with
    | .error st => t.place (.plain st)
    | .ok j => { t with req := { t.req with link := .executing, executor := .waiting j } }

/-! ### Slots (R71, R72) -/

/-- The slot of number `n` among the listed pairs; an unlisted slot is blank (R98). -/
def slotGet : List (Nat × Slot) → Nat → Slot
  | [], _ => Slot.blank
  | (k, v) :: t, n => if n = k then v else slotGet t n

/-- `v` put at the head of `t` under number `n`, unless it is what an unlisted slot is. -/
def slotCons (n : Nat) (v : Slot) (t : List (Nat × Slot)) : List (Nat × Slot) :=
  if v = Slot.blank then t else (n, v) :: t

/-- Writes slot `n`, keeping the numbers rising and no blank slot listed. -/
def slotSet : List (Nat × Slot) → Nat → Slot → List (Nat × Slot)
  | [], n, v => slotCons n v []
  | (k, w) :: t, n, v =>
    if n < k then slotCons n v ((k, w) :: t)
    else if n = k then slotCons n v t
    else (k, w) :: slotSet t n v

/-- Slot `n` of the table. -/
def LineTable.slot (t : LineTable) (n : Nat) : Slot := slotGet t.slots n

/-- The table with slot `n` replaced. -/
def LineTable.setSlot (t : LineTable) (n : Nat) (v : Slot) : LineTable := { t with slots := slotSet t.slots n v }

/-- The least FREE slot number from `n`, looking at `fuel` slots. -/
def lowestFreeFrom (slots : List (Nat × Slot)) : Nat → Nat → Option Nat
  | 0, _ => none
  | fuel + 1, n => if (slotGet slots n).entry.isNone then some n else lowestFreeFrom slots fuel (n + 1)

/-- The lowest-numbered FREE slot (R86), nothing when the table is full. -/
def LineTable.lowestFree (t : LineTable) : Option Nat := lowestFreeFrom t.slots Config.slotCount 0

/-- The live entries of point `p` (R97). -/
def LineTable.liveCount (t : LineTable) (p : Point) : Nat :=
  t.slots.countP fun e => e.2.entry.any fun n => decide (n.point = p)

/-- The FREE slots (R97). -/
def LineTable.freeCount (t : LineTable) : Nat :=
  Config.slotCount - t.slots.countP fun e => e.2.entry.isSome

/-! ### Entries and the index (R73, R80) -/

/-- The lower and the upper edge of an entry's window, formed exactly (R73). -/
def Entry.lower (e : Entry) : Int := e.nominal - (e.halfWidth : Int)
def Entry.upper (e : Entry) : Int := e.nominal + (e.halfWidth : Int)

/-- The index item of an entry in a slot (R80). -/
def indexItem (slot revision : Nat) (e : Entry) : IndexItem where
  slot := slot
  key := e.key
  revision := revision
  lower := e.lower
  upper := e.upper
  hold := e.hold
  trigger := e.trigger

/-- The item of key `k`. -/
def findKey (idx : List IndexItem) (k : Nat) : Option IndexItem := idx.find? fun it => decide (it.key = k)

/-- The item of slot `n`. -/
def findSlot (idx : List IndexItem) (n : Nat) : Option IndexItem := idx.find? fun it => decide (it.slot = n)

/-- The item with the greatest key below `k` (R81). -/
def predecessor (idx : List IndexItem) (k : Nat) : Option IndexItem :=
  idx.reverse.find? fun it => decide (it.key < k)

/-- The item with the least key above `k` (R81). -/
def successor (idx : List IndexItem) (k : Nat) : Option IndexItem := idx.find? fun it => decide (k < it.key)

/-- The item with the least key at or above `k` and at or below `last` (R91, R95). -/
def nextItem (idx : List IndexItem) (k last : Nat) : Option IndexItem :=
  idx.find? fun it => decide (k ≤ it.key ∧ it.key ≤ last)

/-- An item inserted at its key's place (R80). -/
def insertItem (it : IndexItem) : List IndexItem → List IndexItem
  | [] => [it]
  | h :: t => if it.key < h.key then it :: h :: t else h :: insertItem it t

/-- The item of the same key replaced (R80). -/
def replaceItem (it : IndexItem) (idx : List IndexItem) : List IndexItem :=
  idx.map fun h => if h.key = it.key then it else h

/-- The item of key `k` removed (R80). -/
def removeKey (k : Nat) (idx : List IndexItem) : List IndexItem := idx.filter fun h => decide (h.key ≠ k)

/-- The table with the index of point `p` replaced. -/
def LineTable.setIndex (t : LineTable) (p : Point) (idx : List IndexItem) : LineTable :=
  { t with index := t.index.set p idx }

/-- The index of point `p`. -/
def State.index (s : State) (p : Point) : List IndexItem := s.table.index.get p

/-- The live entry of a point and key: its index item, and the entry in the item's slot. -/
structure LiveEntry where
  item : IndexItem
  entry : Entry
  deriving DecidableEq, Repr

/-- The entry an index item stands for. -/
def LineTable.entryOf (t : LineTable) (it : IndexItem) : Option LiveEntry :=
  (t.slot it.slot).entry.map fun e => { item := it, entry := e }

/-- The live entry of point `p` with key `k` (R71). -/
def LineTable.findEntry (t : LineTable) (p : Point) (k : Nat) : Option LiveEntry :=
  (findKey (t.index.get p) k).bind t.entryOf

end Sys2Proof.Machine
end

