-- ==== Sys2Proof/Machine/Channel.lean ====
section
/-! DEFINITION. One fringe channel: what a phase sample does to it (01, R5 to R16), its scales and its position
(02, R26 to R29). -/

namespace Sys2Proof.Machine

/-! ### Scales and position -/

/-- Q = round(λ × 2^21 / (1000 × f)) (R26). -/
def vacuumScale (wavelength fold : Nat) : Int :=
  roundDiv ((wavelength : Int) * 2097152) (1000 * (fold : Int))

/-- Kc = Q − round(Q × W / 10^10) (R27). -/
def compensatedScale (q w : Int) : Int := q - roundDiv (q * w) 10000000000

/-- round(count × Kc / 2^32), saturated (R29). -/
def positionOf (count kc : Int) : Int := saturate (roundDiv (count * kc) 4294967296)

/-- P, the position of an axis in pm (R29). -/
def Channel.position (c : Channel) : Int := positionOf c.count c.kc

/-- Vel, the sum of the steps in the history (R10). -/
def Channel.vel (c : Channel) : Int := c.history.sum

/-- A channel whose last phase is present is seeded (R2). -/
def Channel.seeded (c : Channel) : Bool := c.lastPhase.isSome

/-- A channel with a nonzero hold counter is in hold (R2). -/
def Channel.inHold (c : Channel) : Bool := decide (c.hold ≠ 0)

/-! ### The phase sample -/

/-- What a sample does to a channel: the channel it leaves, and whether the channel entered LOST at it (R15). -/
structure SampleResult where
  channel : Channel
  lost : Bool
  deriving DecidableEq, Repr

/-- Entry into LOST: the cause is recorded, the hold counter returns to 0, the count and history are kept (R15). -/
def Channel.enterLost (c : Channel) (cause : LostCause) : SampleResult :=
  { channel := { c with state := .lost, lostCause := cause, hold := 0 }, lost := true }

/-- The step from the last phase to φ: the raw difference taken the shorter way round, negated when inverted (R7). -/
def stepOf (invert : Bool) (last phase : Phase) : Int :=
  let raw : Int := (phase.val : Int) - (last.val : Int)
  let d := if 511 < raw then raw - 1024 else if raw < -512 then raw + 1024 else raw
  if invert then -d else d

/-- The history with a step appended, the oldest removed when it held 16 (R10). -/
def appendStep (history : List Int) (d : Int) : List Int :=
  if Config.historyLength ≤ history.length then history.drop 1 ++ [d] else history ++ [d]

/-- A seeded counting channel forms a step and counts it, or is lost by RATE or RANGE (R7 to R10). -/
def Channel.countStep (c : Channel) (last phase : Phase) : SampleResult :=
  let d := stepOf c.invert last phase
  if Config.stepLimit < d ∨ d < -Config.stepLimit then c.enterLost .rate
  else if Config.countMax < c.count + d then { c with count := Config.countMax }.enterLost .range
  else if c.count + d < -Config.countMax then { c with count := -Config.countMax }.enterLost .range
  else
    { channel := { c with count := c.count + d, lastPhase := some phase, history := appendStep c.history d }
      lost := false }

/-- A counting channel finds its lines not good: the hold counter is set or raised and compared with D (R11, R12). -/
def Channel.holdStep (c : Channel) : SampleResult :=
  if c.dropLimit ≤ c.hold + 1 then c.enterLost .dropout
  else { channel := { c with hold := c.hold + 1 }, lost := false }

/-- A counting channel in hold finds its lines good: the hold ends, the dropout count rises, and the sample is unwrapped
against the held phase (R13). -/
def Channel.recover (c : Channel) (last phase : Phase) : SampleResult :=
  { c with hold := 0, dropouts := bump8 c.dropouts }.countStep last phase

/-- A channel in RELATIVE or TRACKING (R5, R6). -/
def Channel.countingSample (c : Channel) (phase : Phase) (good : Bool) : SampleResult :=
  match c.lastPhase with
  | none => { channel := if good then { c with lastPhase := some phase } else c, lost := false }
  | some last =>
    if good then (if c.inHold then c.recover last phase else c.countStep last phase) else c.holdStep

/-- A LOST channel follows the phase of good samples and is not seeded after the others (R16). -/
def Channel.lostSample (c : Channel) (phase : Phase) (good : Bool) : SampleResult :=
  { channel := { c with lastPhase := if good then some phase else none }, lost := false }

/-- What a phase sample does to a channel (R4, R5): the recorded SIGOK level is replaced whatever the state. -/
def Channel.sample (c : Channel) (phase : Phase) (sigok refok : Bool) : SampleResult :=
  let c := { c with sigok := sigok }
  match c.state with
  | .off => { channel := c, lost := false }
  | .relative => c.countingSample phase (sigok && refok)
  | .tracking => c.countingSample phase (sigok && refok)
  | .lost => c.lostSample phase (sigok && refok)

/-! ### Fitting, unfitting, rescaling -/

/-- Q and Kc computed from the configuration and the axis's active W (R26, R28). -/
def Channel.rescale (c : Channel) (w : Int) : Channel :=
  let q := vacuumScale c.wavelength c.fold
  { c with q := q, kc := compensatedScale q w }

/-- Kc recomputed from Q and a new active W, at a commit (R28, R36). -/
def Channel.recompensate (c : Channel) (w : Int) : Channel := { c with kc := compensatedScale c.q w }

/-- Fitting (R19). -/
def Channel.fit (c : Channel) (w : Int) : Channel :=
  { c with state := .relative, count := 0, lastPhase := none, hold := 0, history := [], lostCause := .none,
           dropouts := 0 }.rescale w

/-- Unfitting (R20): the dropout count is kept. -/
def Channel.unfit (c : Channel) : Channel :=
  { c with state := .off, count := 0, lastPhase := none, hold := 0, history := [], lostCause := .none }

end Sys2Proof.Machine
end

