-- ==== Sys2Proof/Machine/Flags.lean ====
section
/-! DEFINITION. The conditions the chapters name: contributing axes (R47), quiet and guard-clear (R163), eligible and
ahead (R105, R106), who requests the table port and who is granted (R131, R142), and the levels of the notice lines
(R175). -/

namespace Sys2Proof.Machine

/-! ### Points and axes -/

/-- The axis has a nonzero coefficient at the point (R47). -/
def MeasuringPoint.contributes (m : MeasuringPoint) (a : Axis) : Bool := decide (m.config.coeffs.get a ≠ 0)

/-- The point is enabled: in any state but DISABLED (R44). -/
def MeasuringPoint.enabled (m : MeasuringPoint) : Bool := decide (m.state ≠ .disabled)

/-- The point is SCANNING or HALTED (R64). -/
def MeasuringPoint.running (m : MeasuringPoint) : Bool := decide (m.state = .scanning ∨ m.state = .halted)

/-- A contributing axis of the point is in hold (R56). -/
def MeasuringPoint.axisHeld (m : MeasuringPoint) (chs : Axes Channel) : Bool :=
  anyAxis fun a => m.contributes a && (chs.get a).inHold

/-- The axis is a contributing axis of a point that is SCANNING or HALTED (R17, R22). -/
def State.axisInUse (s : State) (a : Axis) : Bool :=
  (s.points.mp0.running && s.points.mp0.contributes a) || (s.points.mp1.running && s.points.mp1.contributes a)

/-! ### Passes and windows -/

/-- A pass is open at the point (R55). -/
def MeasuringPoint.passOpen (m : MeasuringPoint) : Bool :=
  match m.cursor with
  | .opened _ _ _ => true
  | .inactive => false
  | .atEnd => false
  | .armed _ _ _ => false

/-- A strobe is in progress: the tracker is QUALIFYING (R56, R61). -/
def Tracker.inProgress : Tracker → Bool
  | .qualifying _ _ => true
  | .noPulse => false
  | .settling => false

/-- Quiet: no open pass (R163). -/
def MeasuringPoint.quiet (m : MeasuringPoint) : Bool := !m.passOpen

/-- The near edge of an armed window (R106). -/
def nearEdge (d : Designation) (dir : Travel) : Int :=
  match dir with
  | .forward => d.lower
  | .reverse => d.upper

/-- The distance from X to the near edge, negative when X is past it (R163). -/
def nearDistance (d : Designation) (dir : Travel) (x : Int) : Int :=
  match dir with
  | .forward => nearEdge d dir - x
  | .reverse => x - nearEdge d dir

/-- Guard-clear with guard distance `g` (R163). X is that of the last position update, also between a commit and the next one
(R37): where R163 has a commit carry X, the model's choice (log 25). -/
def MeasuringPoint.guardClear (m : MeasuringPoint) (g : Nat) : Bool :=
  m.quiet && (decide (m.state ≠ .scanning) ||
    match m.cursor with
    | .atEnd => true
    | .armed d dir _ => decide ((g : Int) < nearDistance d dir m.x)
    | .inactive => false
    | .opened _ _ _ => false)

/-- The entry of an index item is eligible under the scan (R105). -/
def eligible (sc : Scan) (it : IndexItem) : Bool :=
  decide (sc.first ≤ it.key ∧ it.key ≤ sc.last ∧ (it.key - sc.first) % sc.stride = 0) && !it.hold

/-- The entry of an index item is ahead of X (R106). -/
def ahead (dir : Travel) (x : Int) (it : IndexItem) : Bool :=
  match dir with
  | .forward => decide (x < it.lower)
  | .reverse => decide (it.upper < x)

/-- X lies in a window, edges included (R83, R116). -/
def inside (lower upper x : Int) : Bool := decide (lower ≤ x ∧ x ≤ upper)

/-- The state of the entry in a slot, read from its point (R77), by its code in R201: 0 LOADED, 1 ARMED, 2 OPEN. -/
def MeasuringPoint.entryState (m : MeasuringPoint) (slot : Nat) : Nat :=
  match m.cursor with
  | .armed d _ _ => if d.slot = slot then 1 else 0
  | .opened d _ _ => if d.slot = slot then 2 else 0
  | .inactive => 0
  | .atEnd => 0

/-- The entry in a slot is OPEN (R77). -/
def MeasuringPoint.entryOpen (m : MeasuringPoint) (slot : Nat) : Bool := decide (m.entryState slot = 2)

/-- The window passes the ORDER check against its neighbours in the index (R81). -/
def ordered (idx : List IndexItem) (key : Nat) (lower upper : Int) : Bool :=
  ((predecessor idx key).all fun it => decide (it.upper < lower)) &&
    ((successor idx key).all fun it => decide (upper < it.lower))

/-- The IN_WINDOW check refuses: the point is SCANNING or HALTED and X lies in the window (R83). -/
def MeasuringPoint.inWindow (m : MeasuringPoint) (lower upper : Int) : Bool := m.running && inside lower upper m.x

/-! ### The table port (R131, R142) -/

/-- The evaluator requests the port: a pass queue holds a record, and the port is not occupied by an access of its
own (R131). -/
def State.evaluatorRequests (s : State) : Bool :=
  (!s.points.mp0.queue.isEmpty || !s.points.mp1.queue.isEmpty) && decide (s.port.occupant ≠ .evaluator)

/-- The executor requests the port: it waits for an access (R131). -/
def State.executorRequests (s : State) : Bool :=
  match s.req.executor with
  | .waiting _ => true
  | .free => false
  | .accessing _ => false

/-- The arbiter grants the evaluator: the port is free, the evaluator requests, and the executor does not request or has
waited through fewer than four evaluator grants (R142). -/
def State.evaluatorGranted (s : State) : Bool :=
  decide (s.port.occupant = .free) && s.evaluatorRequests &&
    (!s.executorRequests || decide (s.port.waitCount < Config.waitLimit))

/-- The arbiter grants the executor: the port is free, the executor requests, and the evaluator does not request or has
been granted four times since (R142). -/
def State.executorGranted (s : State) : Bool :=
  decide (s.port.occupant = .free) && s.executorRequests &&
    (!s.evaluatorRequests || decide (Config.waitLimit ≤ s.port.waitCount))

/-! ### The notice lines (R175) -/

/-- The route names line A, or B. -/
def Route.hasA : Route → Bool
  | .nowhere => false
  | .a => true
  | .b => false
  | .ab => true

def Route.hasB : Route → Bool
  | .nowhere => false
  | .a => false
  | .b => true
  | .ab => true

/-- NOTE_A: some pending kind has route A, or A and B (R175). -/
def Notices.noteA (n : Notices) : Bool := EventKind.all.any fun k => n.flags.get k && (n.routes.get k).hasA

/-- NOTE_B: some pending kind has route B, or A and B (R175). -/
def Notices.noteB (n : Notices) : Bool := EventKind.all.any fun k => n.flags.get k && (n.routes.get k).hasB

/-! ### The SDO line (R184, R199) -/

/-- SDO is driven: while CS_N is low, and high-impedance otherwise (R184). In a transaction that the port ignores that is left
open (R199; log 24). -/
def RequestPort.sdoDriven (q : RequestPort) : Bool :=
  match q.transfer with
  | .high => false
  | .low _ _ _ => true
  | .ignored => (Config.ignoredSdo q.ignoredCount).isSome

end Sys2Proof.Machine
end

