-- ==== Sys2Proof/Machine/Window.lean ====
section
/-! DEFINITION. The window logic of one point: arming and triggers (R107, R112, R113), seeking (R106, R111), handed edits
(R109), opening and closing of windows (R115 to R120), outcomes (R121, R122), offers (R123 to R125), entry into SUSPENDED
(R64), and the position update (R48 to R51). -/

namespace Sys2Proof.Machine

/-! ### Triggers and arming -/

/-- The trigger test's condition (R112). -/
def triggerReached (dir : Travel) (position x : Int) : Bool :=
  match dir with
  | .forward => decide (position ≤ x)
  | .reverse => decide (x ≤ position)

/-- The trigger test of an ARMED cursor with an unfired trigger point: when it succeeds the trigger fires, and TRGn is
high for 80 CLKIN periods from now (R112, R113, R114). -/
def MeasuringPoint.triggerTest (m : MeasuringPoint) : MeasuringPoint :=
  match m.cursor with
  | .armed d dir (some t) =>
    if !t.fired && triggerReached dir t.position m.x then
      { m with cursor := .armed d dir (some { t with fired := true }), trg := true, trgLeft := Config.triggerPeriods }
    else m
  | .armed _ _ none => m
  | .inactive => m
  | .atEnd => m
  | .opened _ _ _ => m

/-- The copy of an index item that a designation keeps (R100, R107). -/
def IndexItem.designation (it : IndexItem) : Designation where
  slot := it.slot
  key := it.key
  revision := it.revision
  lower := it.lower
  upper := it.upper
  trigger := it.trigger

/-- The trigger point of a new arming, unfired, or none without the trigger flag (R112). -/
def triggerPointOf (it : IndexItem) (dir : Travel) (lead : Nat) : Option TriggerPoint :=
  if it.trigger then
    match dir with
    | .forward => some { position := it.lower - (lead : Int), fired := false }
    | .reverse => some { position := it.upper + (lead : Int), fired := false }
  else none

/-- A new arming, with its trigger test (R107, R112). -/
def MeasuringPoint.arm (m : MeasuringPoint) (it : IndexItem) (dir : Travel) : MeasuringPoint :=
  { m with cursor := .armed it.designation dir (triggerPointOf it dir m.config.lead) }.triggerTest

/-- The cursor is ARMED on the same slot with the same revision in the same direction (R107). An ARMED entry that has been cleared
65535 times and is then amended has the designation's own revision again (R72): R88 says that its window is replaced, and that the
model follows the test of R107 there, and keeps the old arming, is its choice (DESIGN CHOICE, log 29). -/
def Cursor.sameArming (c : Cursor) (it : IndexItem) (dir : Travel) : Bool :=
  match c with
  | .armed d dir' _ => decide (d.slot = it.slot ∧ d.revision = it.revision ∧ dir' = dir)
  | .inactive => false
  | .atEnd => false
  | .opened _ _ _ => false

/-! ### Seeking -/

/-- The nearest eligible entry ahead of X in the direction, with that direction: the least lower edge in FORWARD, the
greatest upper edge in REVERSE, which the order of the index finds by key (R106). -/
def MeasuringPoint.seekTarget (m : MeasuringPoint) (idx : List IndexItem) : Option (IndexItem × Travel) :=
  match m.direction with
  | none => none
  | some .forward =>
    (idx.find? fun it => eligible m.scan it && ahead .forward m.x it).map fun it => (it, .forward)
  | some .reverse =>
    (idx.reverse.find? fun it => eligible m.scan it && ahead .reverse m.x it).map fun it => (it, .reverse)

/-- The cursor seeks (R106, R107). A cursor that goes to END from elsewhere raises SCAN_END (R111). -/
def MeasuringPoint.seek (m : MeasuringPoint) (idx : List IndexItem) : PointResult :=
  match m.seekTarget idx with
  | some (it, dir) => .quiet (if m.cursor.sameArming it dir then m else m.arm it dir)
  | none =>
    { point := { m with cursor := .atEnd }, events := if m.cursor = .atEnd then [] else [.scanEnd] }

/-- An item is eligible and ahead of X in the point's direction (R109). -/
def MeasuringPoint.eligibleAhead (m : MeasuringPoint) (it : IndexItem) : Bool :=
  match m.direction with
  | none => false
  | some dir => eligible m.scan it && ahead dir m.x it

/-- The key lies before the designated entry's: below it in FORWARD, above it in REVERSE (R109). -/
def MeasuringPoint.keyBefore (m : MeasuringPoint) (key designated : Nat) : Bool :=
  match m.direction with
  | none => false
  | some .forward => decide (key < designated)
  | some .reverse => decide (designated < key)

/-- Whether a handed edit of the entry with this key makes the cursor seek; `before` and `after` are its index item before
and after the edit, where there is one (R84, R109). -/
def MeasuringPoint.editSeeks (m : MeasuringPoint) (key : Nat) (before after : Option IndexItem) : Bool :=
  decide (m.state = .scanning) &&
    match m.cursor with
    | .armed d _ _ =>
      if d.key = key then true
      else (before.any m.eligibleAhead || after.any m.eligibleAhead) && m.keyBefore key d.key
    | .atEnd => before.any m.eligibleAhead || after.any m.eligibleAhead
    | .opened _ _ _ => false
    | .inactive => false

/-- An accepted edit handed to the point, with the index as the edit left it (R84, R109). -/
def MeasuringPoint.handEdit (m : MeasuringPoint) (idx : List IndexItem) (key : Nat)
    (before after : Option IndexItem) : PointResult :=
  if m.editSeeks key before after then m.seek idx else .quiet m

/-! ### Closing a pass -/

/-- What closes a pass (R119, R120, R117). -/
inductive CloseCause where
  | stopScan
  | suspended
  | exit (side : Side)
  | jumped
  deriving DecidableEq, Repr

/-- Rows 5 to 9 of the outcome table (R121). -/
def OpenPass.tallied (r : OpenPass) (inProgress : Bool) : Outcome :=
  if r.split then .split
  else if 2 ≤ r.tally ∨ (r.tally = 1 ∧ inProgress = true) then .multiple
  else if r.tally = 0 ∧ inProgress = true then .incomplete
  else if r.tally = 0 then .missed
  else .matched (r.firstX.getD 0)

/-- The outcome of a pass: the first row of the table whose condition holds (R121). -/
def OpenPass.outcome (r : OpenPass) (cause : CloseCause) (inProgress : Bool) : Outcome :=
  match cause with
  | .stopScan => .aborted
  | .suspended => .axisLost
  | .exit side => if side = r.entrySide then .returned else r.tallied inProgress
  | .jumped => .jumped

/-- The closed record (R122). -/
def OpenPass.close (r : OpenPass) (cause : CloseCause) (inProgress stale : Bool) : PassRecord where
  slot := r.slot
  revision := r.revision
  direction := r.direction
  outcome := r.outcome cause inProgress
  stale := stale

/-- A pulse in progress at a close goes on in SETTLING, its latched position dropped (R61). -/
def Tracker.atClose : Tracker → Tracker
  | .qualifying _ _ => .settling
  | .noPulse => .noPulse
  | .settling => .settling

/-- The queue has room for an offered record (R124). -/
def MeasuringPoint.queueHasRoom (m : MeasuringPoint) : Bool := decide (m.queue.length < Config.queueLength)

/-- The record is offered: appended as the newest when it fits, otherwise lost and counted (R124, R125). -/
def MeasuringPoint.offer (m : MeasuringPoint) (r : PassRecord) : MeasuringPoint :=
  if m.queueHasRoom then { m with queue := m.queue ++ [r] }
  else { m with counters := { m.counters with overrunLost := bump16 m.counters.overrunLost } }

/-- A close of a SCANNING point by exit or crossing: the record is offered; if it fits the cursor seeks, with the cursor
not ARMED; otherwise the point enters HALTED (R115 stage 6, R123, R125). -/
def MeasuringPoint.closeScanning (m : MeasuringPoint) (idx : List IndexItem) (stale : Bool) (cause : CloseCause)
    (r : OpenPass) : PointResult :=
  let rec1 := r.close cause m.tracker.inProgress stale
  let m1 := { m with tracker := m.tracker.atClose }
  if m1.queueHasRoom then (m1.offer rec1).seek idx
  else
    { point := { m1.offer rec1 with state := .halted, cursor := .inactive }
      events := [.pointHalted] }

/-- A close by STOP SCAN or by entry into SUSPENDED: the record is offered, and the cursor becomes INACTIVE with no seek
(R104, R120, R125). Without an open pass the cursor alone changes. -/
def MeasuringPoint.closeStopped (m : MeasuringPoint) (stale : Bool) (cause : CloseCause) : MeasuringPoint :=
  match m.cursor with
  | .opened _ _ r =>
    { { m with tracker := m.tracker.atClose }.offer (r.close cause m.tracker.inProgress stale) with cursor := .inactive }
  | .inactive => m
  | .atEnd => { m with cursor := .inactive }
  | .armed _ _ _ => { m with cursor := .inactive }

/-- Entry into SUSPENDED (R64). -/
def MeasuringPoint.suspend (m : MeasuringPoint) (stale : Bool) (cause : SuspendCause) : PointResult :=
  { point := { m.closeStopped stale .suspended with state := .suspended, cause := cause }
    events := [.pointSuspended] }

/-- The loss of axes handed to the point (R15, R64, R65): a SCANNING or HALTED point with a contributing axis among them
enters SUSPENDED. -/
def MeasuringPoint.takeLoss (m : MeasuringPoint) (stale : Bool) (lost : Axis → Bool) : PointResult :=
  if m.running && anyAxis (fun a => m.contributes a && lost a) then m.suspend stale .axisLost else .quiet m

/-! ### Opening and closing tests -/

/-- The side at which a pass enters (R116). -/
def entrySideOf : Travel → Side
  | .forward => .low
  | .reverse => .high

/-- The record a window opens with. The revision is the index item's at this update (R116, R107); a designated slot that
the index does not list keeps the designation's revision (log 16). -/
def MeasuringPoint.newPass (m : MeasuringPoint) (idx : List IndexItem) (d : Designation) (dir : Travel) : OpenPass where
  slot := d.slot
  revision := ((findSlot idx d.slot).map IndexItem.revision).getD d.revision
  entrySide := entrySideOf (m.direction.getD dir)
  direction := m.direction.getD dir
  tally := 0
  firstX := none
  split := false

/-- The window opens: the cursor is OPEN, the trigger point is gone, the designation has the index's revision (R116). -/
def MeasuringPoint.openWindow (m : MeasuringPoint) (idx : List IndexItem) (d : Designation) (dir : Travel) :
    MeasuringPoint :=
  let r := m.newPass idx d dir
  { m with cursor := .opened { d with revision := r.revision } dir r }

/-- The window was crossed in one update in the arming direction (R117). -/
def crossed (d : Designation) (dir : Travel) (prevX x : Int) : Bool :=
  match dir with
  | .forward => decide (prevX < d.lower ∧ d.upper < x)
  | .reverse => decide (d.upper < prevX ∧ x < d.lower)

/-- The opening test of an ARMED cursor (R116, R117). -/
def MeasuringPoint.openingTest (m : MeasuringPoint) (idx : List IndexItem) (stale : Bool) : PointResult :=
  match m.cursor with
  | .armed d dir _ =>
    if inside d.lower d.upper m.x then .quiet (m.openWindow idx d dir)
    else if crossed d dir m.prevX m.x then
      (m.openWindow idx d dir).closeScanning idx stale .jumped (m.newPass idx d dir)
    else .quiet m
  | .inactive => .quiet m
  | .atEnd => .quiet m
  | .opened _ _ _ => .quiet m

/-- The closing test of an OPEN cursor (R119). -/
def MeasuringPoint.closingTest (m : MeasuringPoint) (idx : List IndexItem) (stale : Bool) : PointResult :=
  match m.cursor with
  | .opened d _ r =>
    if m.x < d.lower then m.closeScanning idx stale (.exit .low) r
    else if d.upper < m.x then m.closeScanning idx stale (.exit .high) r
    else .quiet m
  | .inactive => .quiet m
  | .atEnd => .quiet m
  | .armed _ _ _ => .quiet m

/-- The seek of a change of direction, for a cursor ARMED or at END (R108). -/
def MeasuringPoint.turnSeek (m : MeasuringPoint) (idx : List IndexItem) (changed : Bool) : PointResult :=
  match m.cursor with
  | .armed _ _ _ => if changed then m.seek idx else .quiet m
  | .atEnd => if changed then m.seek idx else .quiet m
  | .inactive => .quiet m
  | .opened _ _ _ => .quiet m

/-- Stages 2 to 4 and 6 of an update that finds no pass open (R115). -/
def MeasuringPoint.approach (m : MeasuringPoint) (idx : List IndexItem) (stale changed : Bool) : PointResult :=
  let r1 := m.turnSeek idx changed
  let r2 := r1.point.triggerTest.openingTest idx stale
  { point := r2.point, events := r1.events ++ r2.events }

/-- The window logic of a position update (R115): stage 1 for SCANNING and HALTED, the later stages for SCANNING. -/
def MeasuringPoint.windowUpdate (m : MeasuringPoint) (idx : List IndexItem) (stale changed outOfRange : Bool) :
    PointResult :=
  match m.state with
  | .scanning =>
    if outOfRange then m.suspend stale .range
    else if m.passOpen then m.closingTest idx stale
    else m.approach idx stale changed
  | .halted => if outOfRange then m.suspend stale .range else .quiet m
  | .disabled => .quiet m
  | .idle => .quiet m
  | .suspended => .quiet m

/-! ### The position update -/

/-- Σ c_a × P_a / 2^20 rounded, before it saturates (R48). -/
def rawX (coeffs : Axes Int) (chs : Axes Channel) : Int :=
  roundDiv (sumAxes fun a => coeffs.get a * (chs.get a).position) 1048576

/-- Vx (R49). -/
def formVx (coeffs : Axes Int) (chs : Axes Channel) : Int :=
  roundDiv (sumAxes fun a => coeffs.get a * (chs.get a).vel * (chs.get a).kc) 4503599627370496

/-- The rounded X lies outside the position range (R48). -/
def outOfRange (x : Int) : Bool := decide (Config.posMax < x ∨ x < -Config.posMax)

/-- The direction after the decision (R50). -/
def decideDirection (hyst : Nat) (vx : Int) (dir : Option Travel) : Option Travel :=
  if (hyst : Int) ≤ vx then some .forward else if vx ≤ -(hyst : Int) then some .reverse else dir

/-- X and Vx of the given axes (R29, R48, R49): at a position update the axes of its sample, at an enabling or reconfiguring
CONFIGURE POINT the axes as the most recent phase sample left them (R46). -/
def MeasuringPoint.formPosition (m : MeasuringPoint) (chs : Axes Channel) : MeasuringPoint :=
  { m with x := saturate (rawX m.config.coeffs chs), vx := formVx m.config.coeffs chs }

/-- X, Vx and the direction formed at a position update, the X before kept as the previous X (R48 to R51). -/
def MeasuringPoint.formUpdate (m : MeasuringPoint) (chs : Axes Channel) : MeasuringPoint :=
  let m1 := { m with prevX := m.x }.formPosition chs
  { m1 with direction := decideDirection m.config.hyst m1.vx m.direction }

/-- The position update of an enabled point (R4, R48 to R51, R115). A DISABLED point takes none (R44). -/
def MeasuringPoint.positionUpdate (m : MeasuringPoint) (chs : Axes Channel) (idx : List IndexItem) (stale : Bool) :
    PointResult :=
  if m.enabled then
    let m1 := m.formUpdate chs
    m1.windowUpdate idx stale (decide (m1.direction ≠ m.direction)) (outOfRange (rawX m.config.coeffs chs))
  else .quiet m

/-! ### What the others hand to a point -/

/-- A commit handed to the point marks an open pass split (R38, R170). -/
def MeasuringPoint.takeCommit (m : MeasuringPoint) : MeasuringPoint :=
  match m.cursor with
  | .opened d dir r => { m with cursor := .opened d dir { r with split := true } }
  | .inactive => m
  | .atEnd => m
  | .armed _ _ _ => m

/-- What RESTART does to the point (R70, R129): the queue and the open pass are dropped, the tracker is NO_PULSE with the
kept level loaded (R52), and the configuration, direction, X, Vx, range, stride and trigger line stay. -/
def MeasuringPoint.restart (m : MeasuringPoint) : MeasuringPoint :=
  { m with
    state := if m.config.enabled then .idle else .disabled
    cause := .none
    tracker := .noPulse
    stbKept := m.stb
    cursor := .inactive
    queue := []
    counters := .zero }

end Sys2Proof.Machine
end

