-- ==== Sys2Proof/Machine/Medium.lean ====
section
/-! DEFINITION. The compensation unit: commits (02, R36 to R39), examinations and the kinds of commit (07, R164 to R168),
the interval timer and its expiries (R155, R158 to R160), and the meanings of MILLISECOND_TICK, EXPIRY, SUPPLY_MEDIUM,
SET_COMMIT_POLICY, FORCE_COMMIT and SET_TIMER. -/

namespace Sys2Proof.Machine

/-! ### Commits -/

/-- The pending set `ps` becomes active: every Kc is recomputed, the set is absent, the debt is 0, and the commit is handed
to both points (R36, R38). The medium age and the stale flag stay. -/
def State.applyCommit (s : State) (ps : MediumSet) (kind : CommitKind) : State :=
  { s with
    channels := .ofFn fun a => (s.channels.get a).recompensate (ps.w.get a)
    cu :=
      { s.cu with activeW := ps.w, activeGeneration := ps.generation, pendingSet := none, debt := 0,
                  lastCommit := kind }
    points := { mp0 := s.points.mp0.takeCommit, mp1 := s.points.mp1.takeCommit } }

/-- A commit of the kind, with the events it raises; without a pending set none is taken (R36, R38, R167). -/
def State.commit (s : State) (kind : CommitKind) : State :=
  match s.cu.pendingSet with
  | none => s
  | some ps => ((s.applyCommit ps kind).raise .committed).raiseIf (decide (kind = .panic)) .panicCommit

/-- Both points are quiet (R163). -/
def State.bothQuiet (s : State) : Bool := s.points.mp0.quiet && s.points.mp1.quiet

/-- Both points are guard-clear (R163). -/
def State.bothGuardClear (s : State) : Bool :=
  s.points.mp0.guardClear s.cu.guard && s.points.mp1.guardClear s.cu.guard

/-- A moment of examination (R164): with commit hold clear, an HP commit when the debt has reached the HP mark and both
points are quiet, otherwise an opportunistic commit when both are guard-clear. -/
def State.examine (s : State) : State :=
  if s.cu.commitHold then s
  else if s.cu.hpMark ≤ s.cu.debt ∧ s.bothQuiet = true then s.commit .hp
  else if s.bothGuardClear then s.commit .opportunistic
  else s

/-! ### Age, debt and expiries -/

/-- The stale test: at the stale limit with the flag clear, the flag is set and MEDIUM_STALE raised (R159, R162). -/
def State.staleTest (s : State) : State :=
  if s.cu.staleLimit ≤ s.cu.age ∧ s.cu.stale = false then
    { s with cu := { s.cu with stale := true } }.raise .mediumStale
  else s

/-- The debt rises by one while a pending set exists (R158 stage 2, R160). -/
def Cu.raiseDebt (c : Cu) : Cu := if c.pendingSet.isSome then { c with debt := c.debt + 1 } else c

/-- Stages 2 to 4 of an expiry: the debt rises, at the panic mark a panic commit is taken at once, and a pending set that
still exists is examined (R158). -/
def State.expiryCommit (s : State) : State :=
  let t := { s with cu := s.cu.raiseDebt }
  if t.cu.debt = t.cu.panicMark then t.commit .panic else t.examine

/-- An expiry: the count reloads, and the CU acts in the order of R158. -/
def State.expire (s : State) : State :=
  { s with cu := { s.cu with timerCount := s.cu.timerPeriod, age := bump8 s.cu.age } }.staleTest.expiryCommit

/-- An enabled tick reduces a count above 0 (R155). -/
def State.reduceTimer (s : State) : State :=
  { s with cu := { s.cu with timerCount := s.cu.timerCount - 1 } }

/-- MILLISECOND_TICK (R155): with the enable set it reduces the count, and finding the count at 0 it is an expiry
(log 7). The command is taken as the tick itself, wherever the block's own count of periods stands, and leaves that count: the
model's choice (log 28). -/
def execMillisecondTick (s : State) : Host.Outcome State Fault Refusal :=
  .next (if s.cu.timerEnable then (if s.cu.timerCount = 0 then s.expire else s.reduceTimer) else s)

/-- EXPIRY (R158): it occurs with the enable set and the count at 0 (R155; log 7), wherever the block's own count of periods
stands (log 28). -/
def execExpiry (s : State) : Host.Outcome State Fault Refusal :=
  .next (if s.cu.timerEnable = true ∧ s.cu.timerCount = 0 then s.expire else s)

/-! ### SUPPLY MEDIUM -/

/-- The W's range of R31. -/
def clampW (w : Int) : Int := clampInt (-Config.wMax) Config.wMax w

/-- The mask names axis `a` (R203). -/
def maskNames (mask : Byte) (a : Axis) : Bool := mask.getLsbD a.val

/-- A named W was clamped (R31). -/
def supplyClamped (mask : Byte) (w : Axes (BitVec 32)) : Bool :=
  anyAxis fun a => maskNames mask a && decide (clampW (w.get a).toInt ≠ (w.get a).toInt)

/-- The pending set a supply leaves: named axes take the given W clamped, the others keep the pending W, or the active W
when there is no pending set (R32, R33). -/
def Cu.suppliedSet (c : Cu) (generation : BitVec 16) (mask : Byte) (w : Axes (BitVec 32)) : MediumSet where
  w := .ofFn fun a =>
    if maskNames mask a then clampW (w.get a).toInt else ((c.pendingSet.map MediumSet.w).getD c.activeW).get a
  generation := generation.toNat

/-- The medium state after a supply, before the examination: the debt is not changed, the age is 0, the flag clear
(R32 to R34). -/
def Cu.supply (c : Cu) (generation : BitVec 16) (mask : Byte) (w : Axes (BitVec 32)) : Cu :=
  { c with pendingSet := some (c.suppliedSet generation mask w), age := 0, stale := false }

/-- SUPPLY MEDIUM (R31 to R34). -/
def execSupplyMedium (generation : BitVec 16) (mask : Byte) (w : Axes (BitVec 32)) (s : State) :
    Host.Outcome State Fault Refusal :=
  .next (s.serve 27 fun t =>
    if 64 ≤ mask.toNat then .error .badParam
    else
      .ok ({ t with cu := t.cu.supply generation mask w }.examine,
        .plain (acceptedStatus (supplyClamped mask w))))

/-! ### SET COMMIT POLICY -/

/-- The HP mark as clamped (R161). -/
def clampHp (hp : Byte) : Nat := clampNat 1 14 hp.toNat

/-- The panic mark as clamped, against the HP mark as clamped (R161). -/
def clampPanic (hp panic : Byte) : Nat :=
  if clampNat 2 15 panic.toNat ≤ clampHp hp then clampHp hp + 1 else clampNat 2 15 panic.toNat

/-- The stale limit as clamped (R161). -/
def clampStale (stale : Byte) : Nat := clampNat 1 255 stale.toNat

/-- A distance field as clamped (R161; 03 section 3.2). -/
def clampDistance (g : BitVec 32) : Nat := clampNat 0 Config.distanceMax g.toNat

/-- A setting of the request was clamped (R161). -/
def policyClamped (hp panic stale : Byte) (guard : BitVec 32) : Bool :=
  decide (clampHp hp ≠ hp.toNat) || decide (clampPanic hp panic ≠ panic.toNat) ||
    decide (clampStale stale ≠ stale.toNat) || decide (clampDistance guard ≠ guard.toNat)

/-- The five settings written together (R161). -/
def Cu.setPolicy (c : Cu) (hp panic stale : Byte) (guard : BitVec 32) (hold : Byte) : Cu :=
  { c with hpMark := clampHp hp, panicMark := clampPanic hp panic, staleLimit := clampStale stale,
           guard := clampDistance guard, commitHold := flagOf hold }

/-- A debt at or above the panic mark with a pending set is committed at the request (R162 (1)). -/
def State.policyPanic (s : State) : State :=
  if s.cu.pendingSet.isSome = true ∧ s.cu.panicMark ≤ s.cu.debt then s.commit .panic else s

/-- SET COMMIT POLICY (R161, R162). -/
def execSetCommitPolicy (hp panic stale : Byte) (guard : BitVec 32) (hold : Byte) (s : State) :
    Host.Outcome State Fault Refusal :=
  .next (s.serve 8 fun t =>
    .ok ({ t with cu := t.cu.setPolicy hp panic stale guard hold }.policyPanic.staleTest,
      .plain (acceptedStatus (policyClamped hp panic stale guard))))

/-! ### FORCE COMMIT and SET TIMER -/

/-- The debt raised to the HP mark while a pending set is present (R169). -/
def Cu.force (c : Cu) : Cu := if c.pendingSet.isSome then { c with debt := max c.debt c.hpMark } else c

/-- FORCE COMMIT (R169). -/
def execForceCommit (s : State) : Host.Outcome State Fault Refusal :=
  .next (s.serve 0 fun t => .ok ({ t with cu := t.cu.force }, .plain .ok))

/-- The selected timer fields written (R156): bit 0 period, bit 1 count, bit 2 enable (R203). -/
def Cu.setTimer (c : Cu) (select : Byte) (period count : BitVec 16) (enable : Byte) : Cu :=
  { c with
    timerPeriod := if select.getLsbD 0 then period.toNat else c.timerPeriod
    timerCount := if select.getLsbD 1 then count.toNat else c.timerCount
    timerEnable := if select.getLsbD 2 then flagOf enable else c.timerEnable }

/-- SET TIMER (R156). -/
def execSetTimer (select : Byte) (period count : BitVec 16) (enable : Byte) (s : State) :
    Host.Outcome State Fault Refusal :=
  .next (s.serve 6 fun t => .ok ({ t with cu := t.cu.setTimer select period count enable }, .plain .ok))

end Sys2Proof.Machine
end

