-- ==== Sys2Proof/Machine/Sample.lean ====
section
/-! DEFINITION. PHASE_SAMPLE: the six channels take the sample, their losses go to the points, the enabled points take
their position updates, and the compensation unit examines (R4, R14, R15, R64, R164). -/

namespace Sys2Proof.Machine

/-- What the sample does to the channel of axis `a`. -/
def State.sampleAxis (s : State) (phases : Axes Phase) (sigok : Axes Bool) (refok : Bool) (a : Axis) : SampleResult :=
  (s.channels.get a).sample (phases.get a) (sigok.get a) refok

/-- The six channels after the sample. -/
def State.axesAfter (s : State) (phases : Axes Phase) (sigok : Axes Bool) (refok : Bool) : Axes Channel :=
  .ofFn fun a => (s.sampleAxis phases sigok refok a).channel

/-- Every channel takes the sample, the axes as it left them and those it put in LOST are kept (R46, R23), and the recorded REFOK
level is replaced; a fall of
REFOK raises REF_LOST (R14), an entry into LOST raises AXIS_LOST (R15). -/
def State.sampleChannels (s : State) (phases : Axes Phase) (sigok : Axes Bool) (refok : Bool) : State :=
  ({ s with
      channels := s.axesAfter phases sigok refok
      sampled := s.axesAfter phases sigok refok
      lostNow := .ofFn fun a => (s.sampleAxis phases sigok refok a).lost
      refok := refok }.raiseIf (s.refok && !refok) .refLost).raiseIf
    (anyAxis fun a => (s.sampleAxis phases sigok refok a).lost) .axisLost

/-- The losses of a sample are handed to point `p` (R15, R64). -/
def State.handLoss (s : State) (lost : Axis → Bool) (p : Point) : State :=
  s.takePoint p ((s.point p).takeLoss s.cu.stale lost)

/-- Point `p` takes its position update (R48 to R51, R115). -/
def State.updatePoint (s : State) (p : Point) : State :=
  s.takePoint p ((s.point p).positionUpdate s.channels (s.index p) s.cu.stale)

/-- PHASE_SAMPLE (R4). A channel hands its loss to the points before they take their updates (R64). -/
def execPhaseSample (phases : Axes Phase) (sigok : Axes Bool) (refok : Bool) (s : State) :
    Host.Outcome State Fault Refusal :=
  let lost := fun a => (s.sampleAxis phases sigok refok a).lost
  let s1 := s.sampleChannels phases sigok refok
  let s2 := (s1.handLoss lost .mp0).handLoss lost .mp1
  .next ((s2.updatePoint .mp0).updatePoint .mp1).examine

end Sys2Proof.Machine
end

