-- ==== Sys2Proof/Machine/Strobe.lean ====
section
/-! DEFINITION. The strobe line (03, R52 to R62) and the trigger line (05, R114): the meanings of STROBE_LEADING_EDGE,
STROBE_TRAILING_EDGE, STROBE_COMPLETION and TRIGGER_PULSE_END. -/

namespace Sys2Proof.Machine

/-! ### Latches and strobes -/

/-- The delay-corrected count c′ of a channel, τ given in CLKIN periods: round(Vel × τ / 800) with τ = n × 12.5 ns is
round(Vel × n / 64) (R54). -/
def delayedCount (c : Channel) (tauPeriods : Int) : Int := c.count - roundDiv (c.vel * tauPeriods) 64

/-- X_line: the delay-corrected axes combined (R54). -/
def MeasuringPoint.latch (m : MeasuringPoint) (chs : Axes Channel) : Int :=
  saturate (roundDiv (sumAxes fun a =>
    m.config.coeffs.get a * positionOf (delayedCount (chs.get a) (clkPeriods m.config.tau)) (chs.get a).kc) 1048576)

/-- A complete strobe added to an open pass record (R60). -/
def OpenPass.tallyStrobe (r : OpenPass) (x : Int) : OpenPass :=
  { r with tally := bump8 r.tally, firstX := if r.tally = 0 then some x else r.firstX }

/-- A complete strobe added to the point's open pass (R60). -/
def MeasuringPoint.addStrobe (m : MeasuringPoint) (x : Int) : MeasuringPoint :=
  match m.cursor with
  | .opened d dir r => { m with cursor := .opened d dir (r.tallyStrobe x) }
  | .inactive => m
  | .atEnd => m
  | .armed _ _ _ => m

/-- The stray, glitch and held-strobe counters raised (R55, R58, R56). -/
def MeasuringPoint.countStray (m : MeasuringPoint) : MeasuringPoint :=
  { m with counters := { m.counters with stray := bump16 m.counters.stray } }

def MeasuringPoint.countGlitch (m : MeasuringPoint) : MeasuringPoint :=
  { m with counters := { m.counters with glitch := bump16 m.counters.glitch } }

def MeasuringPoint.countHeld (m : MeasuringPoint) : MeasuringPoint :=
  { m with counters := { m.counters with heldStrobe := bump16 m.counters.heldStrobe } }

/-- The tracker set. -/
def MeasuringPoint.setTracker (m : MeasuringPoint) (t : Tracker) : MeasuringPoint := { m with tracker := t }

/-- The line takes a level, which an enabled point samples and keeps (R52). -/
def MeasuringPoint.setLine (m : MeasuringPoint) (level : Bool) : MeasuringPoint :=
  { m with stb := level, stbKept := if m.enabled then level else m.stbKept }

/-! ### Edges -/

/-- A leading edge found in NO_PULSE: stray without an open window (R55), discarded while a contributing axis is in hold
(R56), otherwise latched. An EDGE-mode pulse of minimum width 0 or 1 period is complete at once (R57). -/
def MeasuringPoint.beginPulse (m : MeasuringPoint) (chs : Axes Channel) : MeasuringPoint :=
  if !m.passOpen then m.countStray.setTracker .settling
  else if m.axisHeld chs then m.countHeld.setTracker .settling
  else if !m.config.mode.isCentre && decide (m.config.minPeriods ≤ 1) then
    (m.addStrobe (m.latch chs)).setTracker .settling
  else m.setTracker (.qualifying (m.latch chs) 1)

/-- A leading edge (R53): it acts in NO_PULSE and is ignored in the other trackers; a DISABLED point takes none. -/
def MeasuringPoint.leadingEdge (m : MeasuringPoint) (chs : Axes Channel) : MeasuringPoint :=
  let m1 := m.setLine m.config.mode.activeLevel
  if m1.enabled then
    match m1.tracker with
    | .noPulse => m1.beginPulse chs
    | .qualifying _ _ => m1
    | .settling => m1
  else m1

/-- The end of a CENTRE-mode pulse that was wide enough: discarded while a contributing axis is in hold, otherwise complete
with the mean of both latches (R59). -/
def MeasuringPoint.endCentrePulse (m : MeasuringPoint) (chs : Axes Channel) (leading : Int) : MeasuringPoint :=
  if m.axisHeld chs then m.countHeld.setTracker .noPulse
  else (m.addStrobe (roundDiv (leading + m.latch chs) 2)).setTracker .noPulse

/-- The end of a pulse in QUALIFYING that was sampled active at `active` periods: a glitch below Wm (R58), otherwise the
strobe of R59 in CENTRE modes, and of R57 in EDGE modes (log 13). -/
def MeasuringPoint.endPulse (m : MeasuringPoint) (chs : Axes Channel) (latched : Int) (active : Nat) :
    MeasuringPoint :=
  if active < m.config.minPeriods then m.countGlitch.setTracker .noPulse
  else if m.config.mode.isCentre then m.endCentrePulse chs latched
  else (m.addStrobe latched).setTracker .noPulse

/-- A trailing edge (R53): it ends a pulse in QUALIFYING, returns SETTLING to NO_PULSE, and is ignored in NO_PULSE. -/
def MeasuringPoint.trailingEdge (m : MeasuringPoint) (chs : Axes Channel) (active : Nat) : MeasuringPoint :=
  let m1 := m.setLine (!m.config.mode.activeLevel)
  if m1.enabled then
    match m1.tracker with
    | .noPulse => m1
    | .qualifying latched _ => m1.endPulse chs latched active
    | .settling => m1.setTracker .noPulse
  else m1

/-- The completion of an EDGE-mode pulse in QUALIFYING (R57). In every other case none occurs (log 6). -/
def MeasuringPoint.completePulse (m : MeasuringPoint) : MeasuringPoint :=
  match m.tracker with
  | .qualifying latched _ =>
    if m.config.mode.isCentre then m else (m.addStrobe latched).setTracker .settling
  | .noPulse => m
  | .settling => m

/-- The trigger pulse ends: TRGn returns low (R114). The command is taken as the end itself, whatever periods of the pulse the
block's clock still counts: the model's choice (log 6). -/
def MeasuringPoint.endTrigger (m : MeasuringPoint) : MeasuringPoint := { m with trg := false, trgLeft := 0 }

/-! ### The meanings -/

/-- STROBE_LEADING_EDGE (R53, R55, R56). -/
def execStrobeLeadingEdge (p : Point) (s : State) : Host.Outcome State Fault Refusal :=
  .next (s.setPoint p ((s.point p).leadingEdge s.channels))

/-- STROBE_TRAILING_EDGE (R53, R58, R59). -/
def execStrobeTrailingEdge (p : Point) (active : Nat) (s : State) : Host.Outcome State Fault Refusal :=
  .next (s.setPoint p ((s.point p).trailingEdge s.channels active))

/-- STROBE_COMPLETION (R57, R60). -/
def execStrobeCompletion (p : Point) (s : State) : Host.Outcome State Fault Refusal :=
  .next (s.setPoint p (s.point p).completePulse)

/-- TRIGGER_PULSE_END (R114). -/
def execTriggerPulseEnd (p : Point) (s : State) : Host.Outcome State Fault Refusal :=
  .next (s.setPoint p (s.point p).endTrigger)

end Sys2Proof.Machine
end

