-- ==== Sys2Proof/Machine/Records.lean ====
section
/-! DEFINITION. The records the part sends (10, R204 to R208), each a list of bytes written field by field as R201 lays
down. -/

namespace Sys2Proof.Machine

/-- A field of `n` bytes that holds a natural number, unsigned. -/
def natField (n v : Nat) : List Byte := leBytes n (v : Int)

/-! ### The axis reading (R205) -/

/-- The levels byte: recorded SIGOK, recorded REFOK, seeded. -/
def Channel.levels (c : Channel) (refok : Bool) : Nat :=
  boolBit c.sigok 0 + boolBit refok 1 + boolBit c.seeded 2

/-- One axis reading, 25 bytes (R24, R205). P and Kc are those of the moment of the reading (R29), also when a commit or a request
has changed the axis since the last sample: the model's choice (log 26). -/
def Channel.reading (c : Channel) (refok : Bool) : List Byte :=
  natField 1 c.state.code ++ natField 1 c.lostCause.code ++ natField 1 c.hold ++ natField 1 c.dropouts
    ++ natField 1 (c.levels refok) ++ leBytes 6 c.count ++ leBytes 2 c.vel ++ leBytes 6 c.position ++ leBytes 6 c.kc

/-- The six axis readings, axis 0 first (R204). -/
def State.axesReading (s : State) : List Byte := s.channels.toList.flatMap fun c => c.reading s.refok

/-! ### The entry record (R76, R206) -/

/-- mean_d, absent while n_d is 0 (R76). -/
def DirStats.mean (d : DirStats) : Option Int := if d.n = 0 then none else some (roundDiv d.sum d.n)

/-- spread_d, absent while n_d is 0 (R76). -/
def DirStats.spread (d : DirStats) : Option Int := d.extremes.map fun e => e.max - e.min

/-- One direction's block, 26 bytes; absent values are sent as 0 (R201, R206). -/
def DirStats.block (d : DirStats) : List Byte :=
  natField 2 d.n ++ leBytes 8 d.sum ++ leBytes 4 ((d.extremes.map Extremes.min).getD 0)
    ++ leBytes 4 ((d.extremes.map Extremes.max).getD 0) ++ leBytes 4 (d.mean.getD 0) ++ leBytes 4 (d.spread.getD 0)

/-- mean_FORWARD − mean_REVERSE, present when both means are (R76). -/
def Results.reversal (r : Results) : Option Int :=
  match r.forward.mean, r.reverse.mean with
  | some f, some v => some (f - v)
  | some _, none => none
  | none, _ => none

/-- The last deviation, present exactly when the last outcome is MATCHED (R75). -/
def Results.lastDeviation (r : Results) : Option Int :=
  match r.lastPass with
  | some ⟨.matched v, _⟩ => some v
  | some _ => none
  | none => none

/-- The flags byte (R206). -/
def Entry.flags (e : Entry) : Nat :=
  boolBit e.hold 0 + boolBit e.trigger 1 + boolBit e.results.staleSeen 2 + boolBit e.results.saturated 3

/-- The presence byte (R206). -/
def Results.presence (r : Results) : Nat :=
  boolBit (decide (0 < r.forward.n)) 0 + boolBit (decide (0 < r.reverse.n)) 1 + boolBit r.reversal.isSome 2
    + boolBit r.lastDeviation.isSome 3

/-- The last outcome's and the last direction's codes, 0 for NONE (R201). -/
def Results.lastOutcomeCode (r : Results) : Nat := (r.lastPass.map fun l => l.outcome.code).getD 0
def Results.lastDirectionCode (r : Results) : Nat := (r.lastPass.map fun l => travelCode l.direction).getD 0

/-- The entry record, 104 bytes, with the entry's state as `state` (R77, R206). -/
def entryRecord (slot revision : Nat) (e : Entry) (state : Nat) : List Byte :=
  natField 2 slot ++ natField 2 revision ++ natField 1 (pointCode e.point) ++ natField 2 e.key ++ leBytes 6 e.nominal
    ++ natField 4 e.halfWidth ++ natField 1 e.flags ++ natField 1 state ++ natField 1 e.results.presence
    ++ natField 1 e.results.lastOutcomeCode ++ natField 1 e.results.lastDirectionCode
    ++ leBytes 4 (e.results.lastDeviation.getD 0) ++ natField 1 e.results.missCount
    ++ natField 1 e.results.rejectCount ++ natField 2 e.results.passTotal ++ e.results.forward.block
    ++ e.results.reverse.block ++ leBytes 6 (e.results.reversal.getD 0) ++ leBytes 8 e.lower ++ leBytes 8 e.upper

/-- The record of a live entry as the table and its point stand (R94). -/
def State.recordOf (s : State) (p : Point) (l : LiveEntry) : List Byte :=
  entryRecord l.item.slot (s.table.slot l.item.slot).revision l.entry ((s.point p).entryState l.item.slot)

/-! ### The medium record (R207) -/

/-- Six W values, axis 0 first. -/
def wBytes (w : Axes Int) : List Byte := w.toList.flatMap fun v => leBytes 4 v

/-- The medium record, 55 bytes (R207). -/
def Cu.mediumRecord (c : Cu) : List Byte :=
  natField 2 c.activeGeneration ++ natField 1 (boolBit c.pendingSet.isSome 0 + boolBit c.stale 1)
    ++ natField 2 ((c.pendingSet.map MediumSet.generation).getD 0) ++ natField 1 c.debt ++ natField 1 c.age
    ++ wBytes c.activeW ++ wBytes ((c.pendingSet.map MediumSet.w).getD (.all 0))

/-! ### The status record (R208) -/

/-- The designation, with the cursor ARMED or OPEN (R201). -/
def Cursor.designation : Cursor → Option Designation
  | .inactive => none
  | .atEnd => none
  | .armed d _ _ => some d
  | .opened d _ _ => some d

/-- The arming direction, with the cursor ARMED (R201). -/
def Cursor.armingDirection : Cursor → Option Travel
  | .inactive => none
  | .atEnd => none
  | .armed _ dir _ => some dir
  | .opened _ _ _ => none

/-- The trigger point, with the cursor ARMED. -/
def Cursor.trigger : Cursor → Option TriggerPoint
  | .inactive => none
  | .atEnd => none
  | .armed _ _ t => t
  | .opened _ _ _ => none

/-- The open pass record, with the cursor OPEN. -/
def Cursor.pass : Cursor → Option OpenPass
  | .inactive => none
  | .atEnd => none
  | .armed _ _ _ => none
  | .opened _ _ r => some r

/-- The flags byte of a point block (R208). -/
def MeasuringPoint.statusFlags (m : MeasuringPoint) (g : Nat) : Nat :=
  boolBit m.passOpen 0 + boolBit m.quiet 1 + boolBit (m.guardClear g) 2 + boolBit m.cursor.trigger.isSome 3
    + boolBit (m.cursor.trigger.any TriggerPoint.fired) 4 + boolBit (m.passOpen && m.tracker.inProgress) 5
    + boolBit (m.cursor.pass.any OpenPass.split) 6

/-- The counters of a point block (R67, R208). -/
def Counters.bytes (c : Counters) : List Byte :=
  natField 2 c.stray ++ natField 2 c.glitch ++ natField 2 c.heldStrobe ++ natField 2 c.overrunLost
    ++ natField 2 c.orphaned

/-- A point block, 39 bytes (R68, R128, R208). -/
def MeasuringPoint.statusBlock (m : MeasuringPoint) (g : Nat) : List Byte :=
  natField 1 m.state.code ++ natField 1 m.cause.code ++ natField 1 (directionCode m.direction)
    ++ natField 1 m.cursor.code ++ natField 1 (m.statusFlags g) ++ natField 1 m.queue.length ++ leBytes 6 m.x
    ++ leBytes 4 m.vx ++ natField 2 ((m.cursor.designation.map Designation.slot).getD 0)
    ++ natField 2 ((m.cursor.designation.map Designation.key).getD 0)
    ++ natField 2 ((m.cursor.designation.map Designation.revision).getD 0)
    ++ natField 1 (directionCode m.cursor.armingDirection) ++ natField 1 ((m.cursor.pass.map OpenPass.tally).getD 0)
    ++ natField 2 m.scan.first ++ natField 2 m.scan.last ++ natField 1 m.scan.stride ++ m.counters.bytes

/-- The scheduling part of the record (R171, R208). -/
def Cu.schedulingBytes (c : Cu) : List Byte :=
  natField 2 c.timerCount ++ natField 2 c.timerPeriod
    ++ natField 1 (boolBit c.timerEnable 0 + boolBit c.commitHold 1) ++ natField 1 c.hpMark ++ natField 1 c.panicMark
    ++ natField 1 c.staleLimit ++ natField 4 c.guard ++ natField 1 c.lastCommit.code

/-- The occupancy part of the record (R97, R208). -/
def LineTable.occupancyBytes (t : LineTable) : List Byte :=
  natField 2 (t.liveCount .mp0) ++ natField 2 (t.liveCount .mp1) ++ natField 2 t.freeCount

/-- The status record, 156 bytes (R197, R208). -/
def State.statusRecord (s : State) : List Byte :=
  s.points.mp0.statusBlock s.cu.guard ++ s.points.mp1.statusBlock s.cu.guard ++ s.table.occupancyBytes
    ++ s.cu.mediumRecord ++ s.cu.schedulingBytes ++ natField 2 s.req.discardedCount ++ natField 2 s.req.malformedCount

/-! ### Notices (R204) -/

/-- The pending set as a field (R201). -/
def Kinds.pendingField (flags : Kinds Bool) : Nat := (EventKind.all.map fun k => boolBit (flags.get k) k.bit).sum

/-- The route field (R201). -/
def Kinds.routeField (routes : Kinds Route) : Nat :=
  (EventKind.all.map fun k => (routes.get k).code * 2 ^ (2 * k.bit)).sum

/-- The data of a TAKE NOTICES response (R177, R204). -/
def Notices.reading (n : Notices) : List Byte :=
  natField 2 n.flags.pendingField ++ natField 3 n.routes.routeField

end Sys2Proof.Machine
end

