-- ==== Sys2Proof/Machine/AxisRequests.lean ====
section
/-! DEFINITION. CONFIGURE_AXIS, PRESET_AXIS and READ_AXES (01, R17 to R24). -/

namespace Sys2Proof.Machine

/-! ### CONFIGURE AXIS -/

/-- λ and f lie in the ranges the request takes (R17). -/
def axisSettingsValid (wavelength : BitVec 32) (fold : Byte) : Bool :=
  decide (Config.lambdaMin ≤ wavelength.toNat ∧ wavelength.toNat ≤ Config.lambdaMax) && decide (fold = 1 ∨ fold = 2)

/-- The settings written, D = 0 written as 1; Q and Kc recomputed when λ or f differs from the value in force (R18, R26). -/
def Channel.configure (c : Channel) (w : Int) (fitted : Bool) (wavelength fold : Nat) (invert : Bool) (drop : Nat) :
    Channel :=
  let c1 := { c with fitted := fitted, wavelength := wavelength, fold := fold, invert := invert,
                     dropLimit := clampNat 1 255 drop }
  if c.wavelength = wavelength ∧ c.fold = fold then c1 else c1.rescale w

/-- The fitted setting acts according to the channel's state (R18 to R20). -/
def Channel.setFitted (c : Channel) (w : Int) (fitted : Bool) : Channel :=
  if fitted then (if c.state = .off then c.fit w else c)
  else if c.state = .off then c else c.unfit

/-- CONFIGURE AXIS (R17, R18). -/
def execConfigureAxis (axis fitted : Byte) (wavelength : BitVec 32) (fold invert drop : Byte) (s : State) :
    Host.Outcome State Fault Refusal :=
  .next (s.serve 9 fun t =>
    match axisOf axis with
    | none => .error .badParam
    | some a =>
      if !axisSettingsValid wavelength fold then .error .badParam
      else if t.axisInUse a then .error .pointState
      else
        let w := t.cu.activeW.get a
        let c := ((t.channels.get a).configure w (flagOf fitted) wavelength.toNat fold.toNat (flagOf invert)
          drop.toNat).setFitted w (flagOf fitted)
        .ok ({ t with channels := t.channels.set a c }, .plain (acceptedStatus (decide (drop = 0)))))

/-! ### PRESET AXIS -/

/-- The value lies in the count range (R22). -/
def countInRange (v : Int) : Bool := decide (-Config.countMax ≤ v ∧ v ≤ Config.countMax)

/-- The channel may be preset: not OFF, both recorded levels high, seeded (R22). -/
def Channel.presettable (c : Channel) (refok : Bool) : Bool :=
  decide (c.state ≠ .off) && c.sigok && refok && c.seeded

/-- Axis `a` may be preset now: its channel passes the checks of R22, and no phase sample taken at this same moment has put it in
LOST (R23). R22 by itself would take a channel that was lost by RATE or RANGE at lines good, since it keeps its phase; how long
the moment of a sample lasts is the model's choice (log 30). -/
def State.presettable (s : State) (a : Axis) : Bool := (s.channels.get a).presettable s.refok && !s.lostNow.get a

/-- The datum set (R23). -/
def Channel.preset (c : Channel) (value : Int) : Channel :=
  { c with count := value, state := .tracking, lostCause := .none }

/-- PRESET AXIS (R22, R23). -/
def execPresetAxis (axis : Byte) (value : BitVec 48) (s : State) : Host.Outcome State Fault Refusal :=
  .next (s.serve 7 fun t =>
    match axisOf axis with
    | none => .error .badParam
    | some a =>
      if !countInRange value.toInt then .error .badParam
      else if !t.presettable a then .error .axisState
      else if t.axisInUse a then .error .pointState
      else .ok ({ t with channels := t.channels.set a ((t.channels.get a).preset value.toInt) }, .plain .ok))

/-! ### READ AXES -/

/-- READ AXES (R24). -/
def execReadAxes (s : State) : Host.Outcome State Fault Refusal :=
  .next (s.serve 0 fun t => .ok (t, { status := .ok, data := t.axesReading }))

end Sys2Proof.Machine
end

