-- ==== Sys2Proof/Machine/PointRequests.lean ====
section
/-! DEFINITION. CONFIGURE_POINT (03, R45, R46), START_SCAN, STOP_SCAN and ACKNOWLEDGE_HALT (05, R102 to R104, R127). -/

namespace Sys2Proof.Machine

/-! ### CONFIGURE POINT -/

/-- The coefficients as signed numbers (R203). -/
def coeffsOf (c : Axes (BitVec 32)) : Axes Int := .ofFn fun a => (c.get a).toInt

/-- Every coefficient lies within ±2^21 (R45). -/
def coeffsInRange (c : Axes Int) : Bool :=
  !anyAxis fun a => decide (c.get a < -2097152 ∨ 2097152 < c.get a)

/-- Some coefficient is not 0. -/
def coeffsNonzero (c : Axes Int) : Bool := anyAxis fun a => decide (c.get a ≠ 0)

/-- A nonzero coefficient is given for an axis that is OFF (R45). -/
def coeffsOnOff (c : Axes Int) (chs : Axes Channel) : Bool :=
  anyAxis fun a => decide (c.get a ≠ 0) && decide ((chs.get a).state = .off)

/-- The settings as clamped (03 section 3.2). -/
def pointSettings (enabled : Byte) (coeffs : Axes Int) (mode : StrobeMode) (tau width hyst : BitVec 16)
    (lead : BitVec 32) : PointConfig where
  enabled := flagOf enabled
  coeffs := coeffs
  mode := mode
  tau := clampNat 0 Config.tauMax tau.toNat
  width := clampNat 0 Config.widthMax width.toNat
  hyst := clampNat 1 65535 hyst.toNat
  lead := clampDistance lead

/-- A setting was clamped (R45). -/
def pointClamped (cfg : PointConfig) (tau width hyst : BitVec 16) (lead : BitVec 32) : Bool :=
  decide (cfg.tau ≠ tau.toNat) || decide (cfg.width ≠ width.toNat) || decide (cfg.hyst ≠ hyst.toNat) ||
    decide (cfg.lead ≠ lead.toNat)

/-- The settings written to a DISABLED or IDLE point, and what else happens, `chs` being the axes as the most recent phase sample
left them (R46). Enabling and reconfiguring load the kept level of the strobe line (R52). -/
def MeasuringPoint.configure (m : MeasuringPoint) (cfg : PointConfig) (chs : Axes Channel) : MeasuringPoint :=
  let m1 := { m with config := cfg, tracker := .noPulse }
  if cfg.enabled then
    { m1.formPosition chs with
      state := .idle
      direction := if m.state = .disabled then none else m.direction
      stbKept := m.stb }
  else { m1 with state := .disabled, direction := none }

/-- CONFIGURE POINT (R45, R46). -/
def execConfigurePoint (point enabled : Byte) (coeffs : Axes (BitVec 32)) (mode : Byte) (tau width hyst : BitVec 16)
    (lead : BitVec 32) (s : State) : Host.Outcome State Fault Refusal :=
  .next (s.serve 37 fun t =>
    match pointOf point, modeOf mode with
    | some p, some md =>
      let c := coeffsOf coeffs
      if !coeffsInRange c || (flagOf enabled && !coeffsNonzero c) then .error .badParam
      else if (t.point p).state ≠ .disabled ∧ (t.point p).state ≠ .idle then .error .pointState
      else if coeffsOnOff c t.channels then .error .axisState
      else
        let cfg := pointSettings enabled c md tau width hyst lead
        .ok (t.setPoint p ((t.point p).configure cfg t.sampled),
          .plain (acceptedStatus (pointClamped cfg tau width hyst lead)))
    | some _, none => .error .badParam
    | none, _ => .error .badParam)

/-! ### START SCAN -/

/-- A contributing axis of the point is not TRACKING (R102). -/
def MeasuringPoint.axisNotTracking (m : MeasuringPoint) (chs : Axes Channel) : Bool :=
  anyAxis fun a => m.contributes a && decide ((chs.get a).state ≠ .tracking)

/-- The point enters SCANNING with the range and stride, and the cursor seeks (R103). -/
def MeasuringPoint.startScan (m : MeasuringPoint) (first last stride : Nat) (idx : List IndexItem) : PointResult :=
  { m with
    state := .scanning
    cause := .none
    scan := { first := first, last := last, stride := stride } }.seek idx

/-- START SCAN (R102, R103): a stride of 0 is clamped to 1. -/
def execStartScan (point : Byte) (first last : BitVec 16) (stride : Byte) (s : State) :
    Host.Outcome State Fault Refusal :=
  .next (s.serve 6 fun t =>
    match pointOf point with
    | none => .error .badParam
    | some p =>
      if last.toNat < first.toNat then .error .badParam
      else if (t.point p).state ≠ .idle then .error .pointState
      else if (t.point p).axisNotTracking t.channels then .error .axisState
      else
        .ok (t.takePoint p ((t.point p).startScan first.toNat last.toNat (clampNat 1 255 stride.toNat) (t.index p)),
          .plain (acceptedStatus (decide (stride = 0)))))

/-! ### STOP SCAN and ACKNOWLEDGE HALT -/

/-- An open pass closes as ABORTED, the cursor is INACTIVE, the point is IDLE (R104). -/
def MeasuringPoint.stopScan (m : MeasuringPoint) (stale : Bool) : MeasuringPoint :=
  { m.closeStopped stale .stopScan with state := .idle }

/-- STOP SCAN (R104). -/
def execStopScan (point : Byte) (s : State) : Host.Outcome State Fault Refusal :=
  .next (s.serve 1 fun t =>
    match pointOf point with
    | none => .error .badParam
    | some p =>
      if (t.point p).state = .disabled ∨ (t.point p).state = .idle then .error .pointState
      else .ok (t.setPoint p ((t.point p).stopScan t.cu.stale), .plain .ok))

/-- ACKNOWLEDGE HALT (R127). -/
def execAcknowledgeHalt (point : Byte) (s : State) : Host.Outcome State Fault Refusal :=
  .next (s.serve 1 fun t =>
    match pointOf point with
    | none => .error .badParam
    | some p =>
      if (t.point p).state ≠ .halted then .error .pointState
      else .ok (t.takePoint p ({ t.point p with state := .scanning }.seek (t.index p)), .plain .ok))

end Sys2Proof.Machine
end

