-- ==== Sys2Proof/Machine/TableRequests.lean ====
section
/-! DEFINITION. The taking of the table requests (04, R82): LOAD_ENTRY, AMEND_ENTRY, CLEAR_ENTRY, RETIRE_ENTRIES, LOOKUP_ENTRY,
SWEEP_ENTRIES and RESTART are checked by their parameters alone and ask the table port for their first access. -/

namespace Sys2Proof.Machine

/-- The half-width as clamped (R85). -/
def clampHalfWidth (h : BitVec 32) : Nat := clampNat Config.halfWidthMin Config.halfWidthMax h.toNat

/-- The nominal lies in the position range (R85). -/
def nominalInRange (v : Int) : Bool := decide (-Config.posMax ≤ v ∧ v ≤ Config.posMax)

/-- The parameter checks of LOAD ENTRY and AMEND ENTRY (R85, R87): the point and nominal they name, or BAD_PARAM. -/
def definitionCheck (point : Byte) (nominal : BitVec 48) : Except Status (Point × Int) :=
  match pointOf point with
  | none => .error .badParam
  | some p => if nominalInRange nominal.toInt then .ok (p, nominal.toInt) else .error .badParam

/-- LOAD ENTRY is taken (R85). -/
def execLoadEntry (point : Byte) (key : BitVec 16) (nominal : BitVec 48) (halfWidth : BitVec 32)
    (hold trigger : Byte) (s : State) : Host.Outcome State Fault Refusal :=
  .next (s.serveTable 15
    ((definitionCheck point nominal).map fun d =>
      .load d.1 key.toNat d.2 (clampHalfWidth halfWidth) (flagOf hold) (flagOf trigger)
        (decide (clampHalfWidth halfWidth ≠ halfWidth.toNat))))

/-- AMEND ENTRY is taken (R87). -/
def execAmendEntry (point : Byte) (key : BitVec 16) (nominal : BitVec 48) (halfWidth : BitVec 32)
    (hold trigger : Byte) (s : State) : Host.Outcome State Fault Refusal :=
  .next (s.serveTable 15
    ((definitionCheck point nominal).map fun d =>
      .amend d.1 key.toNat d.2 (clampHalfWidth halfWidth) (flagOf hold) (flagOf trigger)
        (decide (clampHalfWidth halfWidth ≠ halfWidth.toNat))))

/-- The parameter check of the requests whose point alone is checked (R89, R94, R95). -/
def pointCheck (point : Byte) : Except Status Point :=
  match pointOf point with
  | none => .error .badParam
  | some p => .ok p

/-- CLEAR ENTRY is taken (R89). -/
def execClearEntry (point : Byte) (key : BitVec 16) (s : State) : Host.Outcome State Fault Refusal :=
  .next (s.serveTable 3 ((pointCheck point).map fun p => .clear p key.toNat))

/-- RETIRE ENTRIES is taken (R91). -/
def execRetireEntries (point : Byte) (first last : BitVec 16) (s : State) : Host.Outcome State Fault Refusal :=
  .next (s.serveTable 5
    (if last.toNat < first.toNat then .error .badParam
     else (pointCheck point).map fun p => .retire p first.toNat last.toNat 0 0))

/-- LOOKUP ENTRY is taken (R94). -/
def execLookupEntry (point : Byte) (key : BitVec 16) (s : State) : Host.Outcome State Fault Refusal :=
  .next (s.serveTable 3 ((pointCheck point).map fun p => .lookup p key.toNat))

/-- SWEEP ENTRIES is taken (R95). -/
def execSweepEntries (point : Byte) (start : BitVec 16) (s : State) : Host.Outcome State Fault Refusal :=
  .next (s.serveTable 3 ((pointCheck point).map fun p => .sweep p start.toNat 0 []))

/-- RESTART is taken (R198). -/
def execRestart (s : State) : Host.Outcome State Fault Refusal :=
  .next (s.serveTable 0 (.ok .restart))

end Sys2Proof.Machine
end

