-- ==== Sys2Proof/Machine/TableAccess.lean ====
section
/-! DEFINITION. The executor's table accesses (04, R82 to R96, R99; 06, R130, R141, R143, R148): what LOAD_ENTRY_ACCESS,
AMEND_ENTRY_ACCESS, CLEAR_ENTRY_ACCESS, RETIRE_STEP, LOOKUP_ENTRY_ACCESS, SWEEP_STEP and RESTART_ACCESS do at their grant,
and EXECUTOR_ACCESS_COMPLETE. -/

namespace Sys2Proof.Machine

/-- What an access does: the state it leaves, and what follows its completion. -/
structure AccessResult where
  state : State
  next : AfterAccess
  deriving DecidableEq, Repr

/-- An access that refuses: the table and the points are as they were (R82). -/
def State.refuseAccess (s : State) (st : Status) : AccessResult :=
  { state := s, next := .answer (.plain st) }

/-- The answer of LOAD, AMEND and CLEAR: the slot and its new revision (R195, R204). -/
def slotAnswer (st : Status) (slot revision : Nat) : AfterAccess :=
  .answer { status := st, data := natField 2 slot ++ natField 2 revision }

/-- The edit of the entry of point `p` with key `key` is handed to the point (R84). -/
def State.handEdit (s : State) (p : Point) (key : Nat) (before after : Option IndexItem) : State :=
  s.takePoint p ((s.point p).handEdit (s.index p) key before after)

/-- A slot and an index written together (R80). -/
def State.writeTable (s : State) (p : Point) (n : Nat) (v : Slot) (idx : List IndexItem) : State :=
  { s with table := (s.table.setSlot n v).setIndex p idx }

/-! ### LOAD ENTRY (R85, R86) -/

/-- A new entry with its results at their LOAD values (R86). -/
def newEntry (p : Point) (key : Nat) (nominal : Int) (halfWidth : Nat) (hold trigger : Bool) : Entry where
  point := p
  key := key
  nominal := nominal
  halfWidth := halfWidth
  hold := hold
  trigger := trigger
  results := .load

/-- The entry takes slot `n`, whose revision rises, and its place in the index, and the edit is handed on (R86). -/
def State.insertEntry (s : State) (n : Nat) (e : Entry) : State :=
  let rev := nextRevision (s.table.slot n).revision
  let it := indexItem n rev e
  (s.writeTable e.point n { revision := rev, entry := some e } (insertItem it (s.index e.point))).handEdit
    e.point e.key none (some it)

/-- The access of LOAD ENTRY: EXISTS, FULL, ORDER, IN_WINDOW in that order, then the insertion (R85, R86). -/
def State.loadAccess (s : State) (e : Entry) (clamped : Bool) : AccessResult :=
  if (findKey (s.index e.point) e.key).isSome then s.refuseAccess .exist
  else
    match s.table.lowestFree with
    | none => s.refuseAccess .full
    | some n =>
      if !ordered (s.index e.point) e.key e.lower e.upper then s.refuseAccess .order
      else if (s.point e.point).inWindow e.lower e.upper then s.refuseAccess .inWindow
      else
        { state := s.insertEntry n e
          next := slotAnswer (acceptedStatus clamped) n (nextRevision (s.table.slot n).revision) }

/-! ### AMEND ENTRY (R87, R88) -/

/-- The definition rewritten; point, key and results stay (R73, R88). -/
def Entry.amend (e : Entry) (nominal : Int) (halfWidth : Nat) (hold trigger : Bool) : Entry :=
  { e with nominal := nominal, halfWidth := halfWidth, hold := hold, trigger := trigger }

/-- The slot's revision rises, the item is replaced, and the edit is handed on (R88). -/
def State.rewriteEntry (s : State) (p : Point) (item : IndexItem) (e : Entry) : State :=
  let rev := nextRevision (s.table.slot item.slot).revision
  let it := { indexItem item.slot rev e with key := item.key }
  (s.writeTable p item.slot { revision := rev, entry := some e } (replaceItem it (s.index p))).handEdit
    p item.key (some item) (some it)

/-- The access of AMEND ENTRY: NO_ENTRY, ENTRY_OPEN, ORDER, IN_WINDOW in that order, then the rewriting (R87, R88). -/
def State.amendAccess (s : State) (p : Point) (key : Nat) (nominal : Int) (halfWidth : Nat)
    (hold trigger clamped : Bool) : AccessResult :=
  match s.table.findEntry p key with
  | none => s.refuseAccess .noEntry
  | some l =>
    let e := l.entry.amend nominal halfWidth hold trigger
    if (s.point p).entryOpen l.item.slot then s.refuseAccess .entryOpen
    else if !ordered (s.index p) key e.lower e.upper then s.refuseAccess .order
    else if (s.point p).inWindow e.lower e.upper then s.refuseAccess .inWindow
    else
      { state := s.rewriteEntry p l.item e
        next := slotAnswer (acceptedStatus clamped) l.item.slot (nextRevision (s.table.slot l.item.slot).revision) }

/-! ### CLEAR ENTRY (R89) -/

/-- The access of CLEAR ENTRY: the results return to their LOAD values, the revision rises in the slot and in the index,
and nothing is handed on (R89). -/
def State.clearAccess (s : State) (p : Point) (key : Nat) : AccessResult :=
  match s.table.findEntry p key with
  | none => s.refuseAccess .noEntry
  | some l =>
    let rev := nextRevision (s.table.slot l.item.slot).revision
    { state := s.writeTable p l.item.slot { revision := rev, entry := some { l.entry with results := .load } }
        (replaceItem { l.item with revision := rev } (s.index p))
      next := slotAnswer .ok l.item.slot rev }

/-! ### RETIRE ENTRIES (R91 to R93) -/

/-- The entry of an item is retired: its slot is FREE with its revision raised, its item leaves the index, and the edit is
handed on (R92). -/
def State.retireEntry (s : State) (p : Point) (it : IndexItem) : State :=
  (s.writeTable p it.slot { revision := nextRevision (s.table.slot it.slot).revision, entry := none }
    (removeKey it.key (s.index p))).handEdit p it.key (some it) none

/-- The answer of RETIRE ENTRIES (R93, R204). -/
def retireAnswer (retired skipped : Nat) : AfterAccess :=
  .answer { status := .ok, data := natField 2 retired ++ natField 2 skipped }

/-- What follows the handling of key `k`: the next entry of the range, or the end (R91). -/
def State.retireNext (s : State) (p : Point) (k last retired skipped : Nat) : AfterAccess :=
  if (nextItem (s.index p) (k + 1) last).isSome then .ask (.retire p (k + 1) last retired skipped)
  else retireAnswer retired skipped

/-- One step of RETIRE ENTRIES: the entry with the least key left in the range is skipped when OPEN and retired
otherwise (R91, R92). -/
def State.retireStep (s : State) (p : Point) (next last retired skipped : Nat) : AccessResult :=
  match nextItem (s.index p) next last with
  | none => { state := s, next := retireAnswer retired skipped }
  | some it =>
    if (s.point p).entryOpen it.slot then
      { state := s, next := s.retireNext p it.key last retired (skipped + 1) }
    else
      { state := s.retireEntry p it, next := (s.retireEntry p it).retireNext p it.key last (retired + 1) skipped }

/-! ### LOOKUP ENTRY and SWEEP ENTRIES (R94 to R96) -/

/-- The access of LOOKUP ENTRY (R94). -/
def State.lookupAccess (s : State) (p : Point) (key : Nat) : AccessResult :=
  match s.table.findEntry p key with
  | none => s.refuseAccess .noEntry
  | some l => { state := s, next := .answer { status := .ok, data := s.recordOf p l } }

/-- The answer of SWEEP ENTRIES: the count and the records (R95, R204). -/
def sweepAnswer (copied : Nat) (records : List Byte) : AfterAccess :=
  .answer { status := .ok, data := natField 1 copied ++ records }

/-- The bytes of an item's record; an item whose slot is FREE gives none (log 16). -/
def State.itemRecord (s : State) (p : Point) (it : IndexItem) : List Byte :=
  ((s.table.entryOf it).map (s.recordOf p)).getD []

/-- One step of SWEEP ENTRIES: the next live entry is copied; the sweep ends after the eighth copy, or when no live entry
of the point has a key above the one copied (R95). -/
def State.sweepStep (s : State) (p : Point) (next copied : Nat) (records : List Byte) : AccessResult :=
  match nextItem (s.index p) next 65535 with
  | none => { state := s, next := sweepAnswer copied records }
  | some it =>
    let records' := records ++ s.itemRecord p it
    { state := s
      next :=
        if copied + 1 < Config.sweepMax ∧ (nextItem (s.index p) (it.key + 1) 65535).isSome = true then
          .ask (.sweep p (it.key + 1) (copied + 1) records')
        else sweepAnswer (copied + 1) records' }

/-! ### RESTART (R99, R148, R198) -/

/-- The slots after RESTART: every LIVE slot is FREE with its revision raised (R99). A slot that is then blank is not
listed. -/
def restartSlots (slots : List (Nat × Slot)) : List (Nat × Slot) :=
  (slots.map fun e => if e.2.entry.isSome then (e.1, { revision := nextRevision e.2.revision, entry := none }) else e).filter
    fun e => decide (e.2 ≠ Slot.blank)

/-- The access of RESTART, as one event (R198): the table, the queues and the open passes are emptied, the points, the
evaluator, the notices and the port's counts reset. -/
def State.restartAccess (s : State) : AccessResult where
  state :=
    { s with
      table := { slots := restartSlots s.table.slots, index := { mp0 := [], mp1 := [] } }
      points := { mp0 := s.points.mp0.restart, mp1 := s.points.mp1.restart }
      pointer := .mp0
      notices := { s.notices with flags := .all false }
      req := { s.req with discarded := false, discardedCount := 0, malformedCount := 0 } }
  next := .answer (.plain .ok)

/-! ### Grants and completions (R130, R141, R143) -/

/-- The grant to the executor: the port is occupied for eight CLKIN periods, the wait count returns to 0, and what follows
the completion is kept (R130, R141). -/
def AccessResult.grant (r : AccessResult) : State :=
  { r.state with
    port := { occupant := .executor, left := Config.accessPeriods, waitCount := 0 }
    req := { r.state.req with executor := .accessing r.next } }

/-- The access the executor waits for is granted, when the arbiter grants it and `run` is the access of the waiting job;
otherwise no such access takes place (R131, R142; log 6). -/
def State.grantAccess (s : State) (run : Job → Option AccessResult) : State :=
  match s.req.executor with
  | .waiting j =>
    if s.executorGranted then
      match run j with
      | some r => r.grant
      | none => s
    else s
  | .free => s
  | .accessing _ => s

/-- LOAD_ENTRY_ACCESS (R85, R86). -/
def execLoadEntryAccess (s : State) : Host.Outcome State Fault Refusal :=
  .next (s.grantAccess fun j =>
    match j with
    | .load p key nominal halfWidth hold trigger clamped =>
      some (s.loadAccess (newEntry p key nominal halfWidth hold trigger) clamped)
    | _ => none)

/-- AMEND_ENTRY_ACCESS (R87, R88). -/
def execAmendEntryAccess (s : State) : Host.Outcome State Fault Refusal :=
  .next (s.grantAccess fun j =>
    match j with
    | .amend p key nominal halfWidth hold trigger clamped =>
      some (s.amendAccess p key nominal halfWidth hold trigger clamped)
    | _ => none)

/-- CLEAR_ENTRY_ACCESS (R89). -/
def execClearEntryAccess (s : State) : Host.Outcome State Fault Refusal :=
  .next (s.grantAccess fun j =>
    match j with
    | .clear p key => some (s.clearAccess p key)
    | _ => none)

/-- RETIRE_STEP (R91, R92). -/
def execRetireStep (s : State) : Host.Outcome State Fault Refusal :=
  .next (s.grantAccess fun j =>
    match j with
    | .retire p next last retired skipped => some (s.retireStep p next last retired skipped)
    | _ => none)

/-- LOOKUP_ENTRY_ACCESS (R94). -/
def execLookupEntryAccess (s : State) : Host.Outcome State Fault Refusal :=
  .next (s.grantAccess fun j =>
    match j with
    | .lookup p key => some (s.lookupAccess p key)
    | _ => none)

/-- SWEEP_STEP (R95). -/
def execSweepStep (s : State) : Host.Outcome State Fault Refusal :=
  .next (s.grantAccess fun j =>
    match j with
    | .sweep p next copied records => some (s.sweepStep p next copied records)
    | _ => none)

/-- RESTART_ACCESS (R99, R148, R198). -/
def execRestartAccess (s : State) : Host.Outcome State Fault Refusal :=
  .next (s.grantAccess fun j =>
    match j with
    | .restart => some s.restartAccess
    | _ => none)

/-- The port free again, the wait count as it stands. -/
def TablePort.release (t : TablePort) : TablePort := { t with occupant := .free, left := 0 }

/-- EXECUTOR_ACCESS_COMPLETE (R130, R143, R189): at the completion of the last access the response is placed; at an earlier
one the executor asks for its next access (log 18). The command is taken as the completion itself, whatever periods of the access
the block's clock still counts: the model's choice (log 6). -/
def execExecutorAccessComplete (s : State) : Host.Outcome State Fault Refusal :=
  .next
    (match s.req.executor with
    | .accessing (.answer r) => { s with port := s.port.release }.place r
    | .accessing (.ask j) => { s with port := s.port.release, req := { s.req with executor := .waiting j } }
    | .free => s
    | .waiting _ => s)

end Sys2Proof.Machine
end

