-- ==== Sys2Proof/Machine/Evaluator.lean ====
section
/-! DEFINITION. The pass evaluator (06, R132 to R140): EVALUATOR_ACCESS and EVALUATOR_ACCESS_COMPLETE. -/

namespace Sys2Proof.Machine

/-! ### Applying a record -/

/-- The deviation: X_line − nominal, clamped to signed 32 bits (R136). -/
def deviation (x nominal : Int) : Int := clampInt (-2147483648) 2147483647 (x - nominal)

/-- A deviation accumulated into a direction, when its count is below 65535 (R136, R137). -/
def DirStats.accumulate (d : DirStats) (dev : Int) : DirStats :=
  if d.n < 65535 then
    { n := d.n + 1
      sum := d.sum + dev
      extremes :=
        match d.extremes with
        | none => some { min := dev, max := dev }
        | some e => some { min := if dev < e.min then dev else e.min, max := if e.max < dev then dev else e.max } }
  else d

/-- The statistics of a direction. -/
def Results.stats (r : Results) : Travel → DirStats
  | .forward => r.forward
  | .reverse => r.reverse

/-- The statistics of a direction replaced; those of the other stay. -/
def Results.setStats (r : Results) (t : Travel) (d : DirStats) : Results :=
  match t with
  | .forward => { r with forward := d }
  | .reverse => { r with reverse := d }

/-- A MATCHED record: accumulated unless the direction is full, which sets the saturated flag; a stale record sets the
stale-seen flag (R136 to R138). -/
def Results.applyMatched (r : Results) (dir : Travel) (dev : Int) (stale : Bool) : Results :=
  { r.setStats dir ((r.stats dir).accumulate dev) with
    saturated := r.saturated || decide (65535 ≤ (r.stats dir).n)
    staleSeen := r.staleSeen || stale }

/-- The last pass and the pass total, set by every record applied (R135). -/
def Results.setLast (r : Results) (o : Outcome) (dir : Travel) : Results :=
  { r with lastPass := some { outcome := o, direction := dir }, passTotal := bump16 r.passTotal }

/-- The miss count raised (R139), and the reject count (R140). -/
def Results.countMiss (r : Results) : Results := { r with missCount := bump8 r.missCount }
def Results.countReject (r : Results) : Results := { r with rejectCount := bump8 r.rejectCount }

/-- A record applied to the results of an entry with this nominal (R135 to R140). -/
def Results.applyPass (r : Results) (nominal : Int) (rec1 : PassRecord) : Results :=
  match rec1.outcome with
  | .matched x =>
    (r.applyMatched rec1.direction (deviation x nominal) rec1.stale).setLast (.matched (deviation x nominal))
      rec1.direction
  | .missed => r.countMiss.setLast .missed rec1.direction
  | .jumped => r.countMiss.setLast .jumped rec1.direction
  | .returned => r.countReject.setLast .returned rec1.direction
  | .multiple => r.countReject.setLast .multiple rec1.direction
  | .incomplete => r.countReject.setLast .incomplete rec1.direction
  | .split => r.countReject.setLast .split rec1.direction
  | .axisLost => r.countReject.setLast .axisLost rec1.direction
  | .aborted => r.countReject.setLast .aborted rec1.direction

/-- MISSED and JUMPED records raise ENTRY_MISSED (R139). -/
def Outcome.isMiss : Outcome → Bool
  | .matched _ => false
  | .missed => true
  | .jumped => true
  | .returned => false
  | .multiple => false
  | .incomplete => false
  | .split => false
  | .axisLost => false
  | .aborted => false

/-! ### The access -/

/-- The queue the evaluator chooses: the one the pointer names if it holds a record, otherwise the other (R132). -/
def State.chosenQueue (s : State) : Point :=
  if (s.point s.pointer).queue.isEmpty then s.pointer.other else s.pointer

/-- The entry a record passes its revision check for: the slot is LIVE with the record's revision (R134). -/
def LineTable.recordEntry (t : LineTable) (r : PassRecord) : Option Entry :=
  if (t.slot r.slot).revision = r.revision then (t.slot r.slot).entry else none

/-- A record that passes is applied to its slot, and a miss raises ENTRY_MISSED (R134 to R140). The revision stays. -/
def State.applyRecord (s : State) (r : PassRecord) (e : Entry) : State :=
  { s with
    table := s.table.setSlot r.slot
      { revision := r.revision, entry := some { e with results := e.results.applyPass e.nominal r } } }.raiseIf
    r.outcome.isMiss .entryMissed

/-- An orphaned record raises the orphaned counter of its point (R134). -/
def MeasuringPoint.countOrphan (m : MeasuringPoint) : MeasuringPoint :=
  { m with counters := { m.counters with orphaned := bump16 m.counters.orphaned } }

/-- The record is applied, or orphaned (R134). -/
def State.evaluate (s : State) (p : Point) (r : PassRecord) : State :=
  match s.table.recordEntry r with
  | some e => s.applyRecord r e
  | none => s.setPoint p (s.point p).countOrphan

/-- The port and the pointer at a grant to the evaluator: the wait count rises when the executor requests (R141), and the
pointer names the point whose queue was not chosen (R132). -/
def State.grantEvaluator (s : State) (p : Point) : State :=
  { s with
    port :=
      { occupant := .evaluator
        left := Config.accessPeriods
        waitCount := if s.executorRequests then s.port.waitCount + 1 else s.port.waitCount }
    pointer := p.other }

/-- EVALUATOR_ACCESS (R132, R134): when the arbiter grants the evaluator, the oldest record of the chosen queue is applied
or orphaned; it stays in its queue until the completion (R133). Otherwise no access takes place (log 6). -/
def execEvaluatorAccess (s : State) : Host.Outcome State Fault Refusal :=
  .next
    (if s.evaluatorGranted then
      match (s.point s.chosenQueue).queue with
      | r :: _ => (s.evaluate s.chosenQueue r).grantEvaluator s.chosenQueue
      | [] => s
    else s)

/-- The oldest record leaves the queue (R133). -/
def MeasuringPoint.dropOldest (m : MeasuringPoint) : MeasuringPoint := { m with queue := m.queue.drop 1 }

/-- EVALUATOR_ACCESS_COMPLETE (R133): the applied record leaves its queue, the one the pointer does not name (log 17), and
the port is free. The command is taken as the completion itself, whatever periods of the access (R130) the block's clock still counts:
the model's choice (log 6). -/
def execEvaluatorAccessComplete (s : State) : Host.Outcome State Fault Refusal :=
  .next
    (if s.port.occupant = .evaluator then
      { s with port := s.port.release }.setPoint s.pointer.other (s.point s.pointer.other).dropOldest
    else s)

end Sys2Proof.Machine
end

