-- ==== Sys2Proof/Machine/PortRequests.lean ====
section
/-! DEFINITION. READ_STATUS (09, R197), TAKE_NOTICES and SET_ROUTES (08, R177, R179), the discarding of frames (R186) and FETCH
(R191), and POWER_ON_RESET. -/

namespace Sys2Proof.Machine

/-! ### READ STATUS -/

/-- The counters of both points and the port's two counts at 0 (R67, R197). -/
def State.clearCounters (s : State) : State :=
  { s with
    points :=
      { mp0 := { s.points.mp0 with counters := .zero }, mp1 := { s.points.mp1 with counters := .zero } }
    req := { s.req with discardedCount := 0, malformedCount := 0 } }

/-- READ STATUS (R197): the record is formed first, then clear option 1 clears the counters. -/
def execReadStatus (clear : Byte) (s : State) : Host.Outcome State Fault Refusal :=
  .next (s.serve 1 fun t =>
    if clear = 0 then .ok (t, { status := .ok, data := t.statusRecord })
    else if clear = 1 then .ok (t.clearCounters, { status := .ok, data := t.statusRecord })
    else .error .badParam)

/-! ### TAKE NOTICES and SET ROUTES -/

/-- The flags of the kinds the mask names are cleared (R177). -/
def State.clearNamed (s : State) (mask : BitVec 16) : State :=
  { s with
    notices := { s.notices with flags := .ofFn fun k => s.notices.flags.get k && !mask.getLsbD k.bit } }

/-- TAKE NOTICES (R177): the answer reports the pending set as it stood before the clear, and the routes. The clear and the raise of
its own RESPONSE_READY are one step, so that a line to which both are routed shows no fall between them: the model's choice
(DESIGN CHOICE, log 31). -/
def execTakeNotices (mask : BitVec 16) (s : State) : Host.Outcome State Fault Refusal :=
  .next (s.serve 2 fun t =>
    if 1024 ≤ mask.toNat then .error .badParam
    else .ok (t.clearNamed mask, { status := .ok, data := t.notices.reading }))

/-- The ten routes of a route field, two bits each (R201). -/
def routesOf (routes : BitVec 24) : Kinds Route := .ofFn fun k => routeOf (routes.toNat / 2 ^ (2 * k.bit) % 4)

/-- SET ROUTES (R179). The new routes and the raise of its own RESPONSE_READY are one step too (DESIGN CHOICE, log 31). -/
def execSetRoutes (routes : BitVec 24) (s : State) : Host.Outcome State Fault Refusal :=
  .next (s.serve 3 fun t =>
    .ok ({ t with notices := { t.notices with routes := routesOf routes } }, .plain .ok))

/-! ### Discarded frames -/

/-- The link is IDLE. -/
def LinkState.isIdle : LinkState → Bool
  | .idle => true
  | .executing => false
  | .ready => false

/-- A FETCH is not judged for the link state (R186 step 3). -/
def isFetch : Instr → Bool
  | .fetch _ => true
  | _ => false

/-- A transaction from which no request is taken ends, `sdi` being all that SDI carried in it. -/
def State.endFrame (s : State) (sdi : List Bool) : State :=
  match judgeFrame sdi with
  | .statusRead => s.shiftOut sdi.length
  | .malformed => (s.shiftOut sdi.length).discardMalformed
  | .short => (s.shiftOut sdi.length).discard
  | .request i => if isFetch i || s.req.link.isIdle then s else (s.shiftOut sdi.length).discard

/-- FRAME_DISCARDED (R186, R187): at the rise of CS_N the frame is judged; malformed, short or busy it is discarded, counted and
flagged. A transaction of fewer than two bytes is a status read and is not judged (R185). A frame that is not discarded is
another command's, and this one leaves the state as it is (log 9). -/
def execFrameDiscarded (sdi : List Bool) (s : State) : Host.Outcome State Fault Refusal :=
  .next (s.endTransfer fun t => t.endFrame (sdi ++ t.req.later))

/-! ### FETCH -/

/-- CS_N falls: the link status byte is taken (R184, R185). With CS_N low already there is no fall (log 6). -/
def State.beginTransfer (s : State) : State :=
  match s.req.transfer with
  | .high => { s with req := { s.req with transfer := .low s.req.statusByte .undecided [] } }
  | .low _ _ _ => s
  | .ignored => s

/-- What a FETCH recognized now is answered: the waiting response, or NOT_READY (R191). -/
def RequestPort.recognition (q : RequestPort) : Recognition :=
  match q.link, q.slot with
  | .ready, some r => .delivers r
  | .ready, none => .notReady
  | .idle, _ => .notReady
  | .executing, _ => .notReady

/-- The L byte of a FETCH completes: its answer is decided (R191). With no transaction under way, or with the answer decided
already, there is none to decide (log 6). -/
def State.decideFetch (s : State) : State :=
  match s.req.transfer with
  | .low status .undecided later => { s with req := { s.req with transfer := .low status s.req.recognition later } }
  | .low _ .notReady _ => s
  | .low _ (.delivers _) _ => s
  | .high => s
  | .ignored => s

/-- SCK runs on after the frame (R184). With no transaction under way, or in an ignored one, the port takes no bits (log 6). -/
def State.runOn (s : State) (sdi : List Bool) : State :=
  match s.req.transfer with
  | .low status fetch later => { s with req := { s.req with transfer := .low status fetch (later ++ sdi) } }
  | .high => s
  | .ignored => s

/-- What the FETCH that ends was answered: as decided at its L byte, or as decided now for one whose L byte was no event of its
own (log 8). -/
def RequestPort.recognized (q : RequestPort) : Recognition :=
  match q.transfer with
  | .low _ .notReady _ => .notReady
  | .low _ (.delivers r) _ => .delivers r
  | .low _ .undecided _ => q.recognition
  | .high => q.recognition
  | .ignored => q.recognition

/-- The response frame a FETCH shifts out (R191). -/
def Recognition.response : Recognition → Response
  | .delivers r => r
  | .notReady => .plain .notReady
  | .undecided => .plain .notReady

/-- What SDO carries in a FETCH of `n` rising edges of SCK: the link status byte, a zero, the frame, then zeros (R191, R202). -/
def RequestPort.fetchOut (q : RequestPort) (n : Nat) : List Bool :=
  (bitsOf (q.statusAtFall :: 0 :: q.recognized.response.frame) ++ List.replicate n false).take n

/-- The rising edges of SCK a FETCH needs to shift out the whole frame of a response: 5 + n bytes for n data bytes (R191). -/
def Response.fetchEdges (r : Response) : Nat := 8 * (5 + r.data.length)

/-- The slot is emptied: the link is IDLE, and RESPONSE_READY is cleared (R180, R191). -/
def State.emptySlot (s : State) : State :=
  { s with req := { s.req with slot := none, link := .idle } }.clearNotice .responseReady

/-- CS_N rises and ends a FETCH of `n` rising edges of SCK: the DISCARDED flag is cleared, and a response delivered whole leaves
the slot (R187, R191). -/
def State.finishFetch (s : State) (n : Nat) : State :=
  let t := { s with req := { s.req with sdo := s.req.fetchOut n, transfer := .high, discarded := false } }
  match s.req.recognized with
  | .delivers r => if r.fetchEdges ≤ n then t.emptySlot else t
  | .notReady => t
  | .undecided => t

/-- FETCH (R191) and the moments of a transaction (R184, R185): the fall of CS_N, the completion of the L byte, the running on of
SCK, and the rise of CS_N that ends a FETCH. -/
def execFetch (m : FetchMoment) (s : State) : Host.Outcome State Fault Refusal :=
  .next
    (match m with
    | .fall => s.beginTransfer
    | .lByte => s.decideFetch
    | .runOn sdi => s.runOn sdi
    | .rise sdi => s.endTransfer fun t => t.finishFetch (16 + sdi.length + t.req.later.length))

/-! ### Power-on -/

/-- A point after power-on, its strobe line at the level it has outside (log 5, log 19). -/
def MeasuringPoint.powerOn (m fresh : MeasuringPoint) : MeasuringPoint := { fresh with stb := m.stb }

/-- CS_N keeps its level through RESET_N: a transaction under way is abandoned, and one whose CS_N is low at the release is ignored
(R199; log 19). -/
def Transfer.powerOn : Transfer → Transfer
  | .high => .high
  | .low _ _ _ => .ignored
  | .ignored => .ignored

/-- The request port after power-on (R199). The model's own count of ignored transactions goes on (log 24). -/
def RequestPort.powerOn (q : RequestPort) : RequestPort :=
  { State.reset.req with transfer := q.transfer.powerOn, ignoredCount := q.ignoredCount }

/-- POWER_ON_RESET: every block in its power-on state (R25, R42, R69, R98, R129, R151, R172, R181, R199). The commands
that wait are outside the part and stay. -/
def execPowerOnReset (s : State) : Host.Outcome State Fault Refusal :=
  .next
    { State.reset with
      points :=
        { mp0 := s.points.mp0.powerOn State.reset.points.mp0
          mp1 := s.points.mp1.powerOn State.reset.points.mp1 }
      req := s.req.powerOn
      pending := s.pending }

end Sys2Proof.Machine
end

