-- ==== Sys2Proof/Machine/Clock.lean ====
section
/-! DEFINITION. What the block does by itself when no command waits (log 2): an access that the arbiter grants now is put into
the queue, and otherwise one CLKIN period passes and the events due at it are put into the queue (log 14). -/

namespace Sys2Proof.Machine

/-! ### Grants -/

/-- The command that grants a job's access. -/
def Job.accessCommand : Job → Instr
  | .load _ _ _ _ _ _ _ => .loadEntryAccess
  | .amend _ _ _ _ _ _ _ => .amendEntryAccess
  | .clear _ _ => .clearEntryAccess
  | .retire _ _ _ _ _ => .retireStep
  | .lookup _ _ => .lookupEntryAccess
  | .sweep _ _ _ _ => .sweepStep
  | .restart => .restartAccess

/-- The access the arbiter grants now, if any (R131, R142). -/
def State.dueGrant (s : State) : Option Instr :=
  if s.evaluatorGranted then some .evaluatorAccess
  else
    match s.req.executor with
    | .waiting j => if s.executorGranted then some j.accessCommand else none
    | .free => none
    | .accessing _ => none

/-! ### One CLKIN period -/

/-- An enabled point samples its strobe line and counts the active periods of a pulse in QUALIFYING (R52, R57). -/
def MeasuringPoint.sampleStrobe (m : MeasuringPoint) : MeasuringPoint :=
  if m.enabled then
    { m with
      stbKept := m.stb
      tracker :=
        match m.tracker with
        | .qualifying x n => .qualifying x (if m.stb = m.config.mode.activeLevel then n + 1 else n)
        | .noPulse => .noPulse
        | .settling => .settling }
  else m

/-- One period off the trigger pulse (R114). -/
def MeasuringPoint.countTrigger (m : MeasuringPoint) : MeasuringPoint := { m with trgLeft := m.trgLeft - 1 }

/-- The point after one CLKIN period. -/
def MeasuringPoint.clkPeriod (m : MeasuringPoint) : MeasuringPoint := m.sampleStrobe.countTrigger

/-- The state after one CLKIN period: the strobe lines sampled, the trigger pulses, the access and the millisecond divider
counted (R52, R114, R130, R155). The moment of the last sample is over (log 30). -/
def State.clkPeriod (s : State) : State :=
  { s with
    lostNow := .all false
    points := { mp0 := s.points.mp0.clkPeriod, mp1 := s.points.mp1.clkPeriod }
    port := { s.port with left := s.port.left - 1 }
    cu :=
      { s.cu with
        msPeriods := if s.cu.msPeriods + 1 < Config.millisecondPeriods then s.cu.msPeriods + 1 else 0 } }

/-! ### The events due after a period -/

/-- The completion of the access that occupies the port, when its time is over (R130). -/
def TablePort.due (t : TablePort) : List Instr :=
  if t.left = 0 then
    match t.occupant with
    | .free => []
    | .evaluator => [.evaluatorAccessComplete]
    | .executor => [.executorAccessComplete]
  else []

/-- The completion of an EDGE-mode pulse at its Wm-th active period (R57), and the end of a trigger pulse (R114). -/
def MeasuringPoint.due (m : MeasuringPoint) (p : Point) : List Instr :=
  (match m.tracker with
    | .qualifying _ n =>
      if !m.config.mode.isCentre && decide (m.config.minPeriods ≤ n) then [.strobeCompletion p] else []
    | .noPulse => []
    | .settling => []) ++
  (if m.trg && decide (m.trgLeft = 0) then [.triggerPulseEnd p] else [])

/-- The millisecond tick, an expiry when the enabled timer's count is 0 (R155). -/
def Cu.due (c : Cu) : List Instr :=
  if c.msPeriods = 0 then (if c.timerEnable && decide (c.timerCount = 0) then [.expiry] else [.millisecondTick]) else []

/-- The events due after a period, in the order the model fixes (log 14). -/
def State.due (s : State) : List Instr :=
  s.port.due ++ s.points.mp0.due .mp0 ++ s.points.mp1.due .mp1 ++ s.cu.due

/-- What a step does when no command waits (log 2). -/
def State.idle (s : State) : State :=
  match s.dueGrant with
  | some i => { s with pending := [i] }
  | none => { s.clkPeriod with pending := s.clkPeriod.due }

end Sys2Proof.Machine
end

