-- ==== Sys2Proof/Machine/Dispatch.lean ====
section
/-! DEFINITION. One arm for each command. -/

namespace Sys2Proof.Machine

def exec (i : Instr) (s : State) : Host.Outcome State Fault Refusal :=
  match i with
  | .powerOnReset => Sys2Proof.Machine.execPowerOnReset s
  | .phaseSample phases sigok refok => Sys2Proof.Machine.execPhaseSample phases sigok refok s
  | .strobeLeadingEdge p => Sys2Proof.Machine.execStrobeLeadingEdge p s
  | .strobeTrailingEdge p active => Sys2Proof.Machine.execStrobeTrailingEdge p active s
  | .strobeCompletion p => Sys2Proof.Machine.execStrobeCompletion p s
  | .triggerPulseEnd p => Sys2Proof.Machine.execTriggerPulseEnd p s
  | .millisecondTick => Sys2Proof.Machine.execMillisecondTick s
  | .expiry => Sys2Proof.Machine.execExpiry s
  | .frameDiscarded sdi => Sys2Proof.Machine.execFrameDiscarded sdi s
  | .fetch m => Sys2Proof.Machine.execFetch m s
  | .configureAxis axis fitted wavelength fold invert drop => Sys2Proof.Machine.execConfigureAxis axis fitted wavelength fold invert drop s
  | .presetAxis axis value => Sys2Proof.Machine.execPresetAxis axis value s
  | .readAxes => Sys2Proof.Machine.execReadAxes s
  | .supplyMedium generation mask w => Sys2Proof.Machine.execSupplyMedium generation mask w s
  | .setCommitPolicy hp panic stale guard hold => Sys2Proof.Machine.execSetCommitPolicy hp panic stale guard hold s
  | .forceCommit => Sys2Proof.Machine.execForceCommit s
  | .setTimer select period count enable => Sys2Proof.Machine.execSetTimer select period count enable s
  | .configurePoint point enabled coeffs mode tau width hyst lead => Sys2Proof.Machine.execConfigurePoint point enabled coeffs mode tau width hyst lead s
  | .startScan point first last stride => Sys2Proof.Machine.execStartScan point first last stride s
  | .stopScan point => Sys2Proof.Machine.execStopScan point s
  | .acknowledgeHalt point => Sys2Proof.Machine.execAcknowledgeHalt point s
  | .loadEntry point key nominal halfWidth hold trigger => Sys2Proof.Machine.execLoadEntry point key nominal halfWidth hold trigger s
  | .amendEntry point key nominal halfWidth hold trigger => Sys2Proof.Machine.execAmendEntry point key nominal halfWidth hold trigger s
  | .clearEntry point key => Sys2Proof.Machine.execClearEntry point key s
  | .retireEntries point first last => Sys2Proof.Machine.execRetireEntries point first last s
  | .lookupEntry point key => Sys2Proof.Machine.execLookupEntry point key s
  | .sweepEntries point start => Sys2Proof.Machine.execSweepEntries point start s
  | .readStatus clear => Sys2Proof.Machine.execReadStatus clear s
  | .takeNotices mask => Sys2Proof.Machine.execTakeNotices mask s
  | .setRoutes routes => Sys2Proof.Machine.execSetRoutes routes s
  | .restart => Sys2Proof.Machine.execRestart s
  | .loadEntryAccess => Sys2Proof.Machine.execLoadEntryAccess s
  | .amendEntryAccess => Sys2Proof.Machine.execAmendEntryAccess s
  | .clearEntryAccess => Sys2Proof.Machine.execClearEntryAccess s
  | .retireStep => Sys2Proof.Machine.execRetireStep s
  | .lookupEntryAccess => Sys2Proof.Machine.execLookupEntryAccess s
  | .sweepStep => Sys2Proof.Machine.execSweepStep s
  | .restartAccess => Sys2Proof.Machine.execRestartAccess s
  | .evaluatorAccess => Sys2Proof.Machine.execEvaluatorAccess s
  | .evaluatorAccessComplete => Sys2Proof.Machine.execEvaluatorAccessComplete s
  | .executorAccessComplete => Sys2Proof.Machine.execExecutorAccessComplete s

end Sys2Proof.Machine
end

