-- ==== Sys2Proof/Safety.lean ====
section
/-! DEFINITION. What holds of the part at every moment, in the manual's own words: the ranges and relations of the channels
(R2, R26, R27), of the compensation unit (R30, R154, R160), of the points (R43, R100, R101), of the line table (R71, R79,
R80), of the statistics (R74), and of the ports (R141, R180, R183). And the words in which the statements describe an
answered request. -/

namespace Sys2Proof.Machine

/-! ### Channels -/

/-- The ranges and relations of one channel (R2, R3, R10, R26, R27), `w` being its axis's active W. -/
structure ChannelOk (c : Channel) (w : Int) : Prop where
  count_range : -Config.countMax ≤ c.count ∧ c.count ≤ Config.countMax
  hold_range : c.hold ≤ 255
  history_length : c.history.length ≤ Config.historyLength
  history_steps : ∀ d ∈ c.history, -Config.stepLimit ≤ d ∧ d ≤ Config.stepLimit
  dropouts_range : c.dropouts ≤ 255
  wavelength_range : Config.lambdaMin ≤ c.wavelength ∧ c.wavelength ≤ Config.lambdaMax
  fold_values : c.fold = 1 ∨ c.fold = 2
  dropLimit_range : 1 ≤ c.dropLimit ∧ c.dropLimit ≤ 255
  scale : c.q = vacuumScale c.wavelength c.fold
  compensated : c.kc = compensatedScale c.q w
  off_clear : c.state = .off → c.count = 0 ∧ c.lastPhase = none ∧ c.hold = 0 ∧ c.history = []
  lost_iff_cause : c.state = .lost ↔ c.lostCause ≠ .none
  hold_counting : c.hold ≠ 0 → (c.state = .relative ∨ c.state = .tracking) ∧ c.seeded = true
  tracking_seeded : c.state = .tracking → c.seeded = true

/-- Every channel is as it should be, its Kc formed from the active W of its axis (R27). -/
def State.ChannelsOk (s : State) : Prop := ∀ a, ChannelOk (s.channels.get a) (s.cu.activeW.get a)

/-- The axes as the most recent phase sample left them (R46) are as channels should be, each Kc formed from some W in range
(R27, R31): the active one of that sample. -/
def State.SampledOk (s : State) : Prop :=
  ∀ a, ∃ w, -Config.wMax ≤ w ∧ w ≤ Config.wMax ∧ ChannelOk (s.sampled.get a) w

/-- An axis that a phase sample of this moment put in LOST is LOST still, or has been unfitted and is not seeded (R16, R20, R23). -/
def State.LostNowOk (s : State) : Prop :=
  ∀ a, s.lostNow.get a = true → (s.channels.get a).state = .lost ∨ (s.channels.get a).lastPhase = none

/-! ### The compensation unit -/

/-- Every W lies in its range (R31). -/
def WInRange (w : Axes Int) : Prop := ∀ a, -Config.wMax ≤ w.get a ∧ w.get a ≤ Config.wMax

/-- The ranges and relations of the compensation unit (R30, R154, R159, R160). -/
structure CuOk (c : Cu) : Prop where
  active_range : WInRange c.activeW ∧ c.activeGeneration ≤ 65535
  pending_range : ∀ ps, c.pendingSet = some ps → WInRange ps.w ∧ ps.generation ≤ 65535
  debt_zero : c.pendingSet = none → c.debt = 0
  debt_below : c.debt < c.panicMark
  marks : 1 ≤ c.hpMark ∧ c.hpMark ≤ 14 ∧ c.hpMark < c.panicMark ∧ c.panicMark ≤ 15
  age_range : c.age ≤ 255
  staleLimit_range : 1 ≤ c.staleLimit ∧ c.staleLimit ≤ 255
  stale_set : c.staleLimit ≤ c.age → c.stale = true
  timer_range : c.timerCount ≤ 65535 ∧ c.timerPeriod ≤ 65535
  guard_range : c.guard ≤ Config.distanceMax
  divider_range : c.msPeriods < Config.millisecondPeriods

/-! ### Measuring points -/

/-- A point's settings lie in their ranges (03 section 3.2). -/
structure PointConfigOk (c : PointConfig) : Prop where
  coeffs_range : ∀ a, -2097152 ≤ c.coeffs.get a ∧ c.coeffs.get a ≤ 2097152
  tau_range : c.tau ≤ Config.tauMax
  width_range : c.width ≤ Config.widthMax
  hyst_range : 1 ≤ c.hyst ∧ c.hyst ≤ 65535
  lead_range : c.lead ≤ Config.distanceMax

/-- Every counter of a point saturates at 65535 (R67). -/
def CountersOk (c : Counters) : Prop :=
  c.stray ≤ 65535 ∧ c.glitch ≤ 65535 ∧ c.heldStrobe ≤ 65535 ∧ c.overrunLost ≤ 65535 ∧ c.orphaned ≤ 65535

/-- A position in pm (00_scope.md, Lengths). -/
def InPositionRange (x : Int) : Prop := -Config.posMax ≤ x ∧ x ≤ Config.posMax

/-- The ranges and relations of one point (R43, R44, R53, R67, R100, R101, R106, R124). -/
structure PointOk (m : MeasuringPoint) : Prop where
  config : PointConfigOk m.config
  enabled_iff : m.config.enabled = true ↔ m.state ≠ .disabled
  cursor_iff : m.cursor = .inactive ↔ m.state ≠ .scanning
  armed_direction : ∀ d dir t, m.cursor = .armed d dir t → m.direction = some dir
  qualifying_open : m.tracker.inProgress = true → m.passOpen = true
  disabled_tracker : m.state = .disabled → m.tracker = .noPulse
  queue_length : m.queue.length ≤ Config.queueLength
  counters : CountersOk m.counters
  x_range : InPositionRange m.x
  prevX_range : InPositionRange m.prevX
  scan_range : m.scan.first ≤ m.scan.last ∧ m.scan.last ≤ 65535 ∧ 1 ≤ m.scan.stride ∧ m.scan.stride ≤ 255
  suspended_cause : m.state = .suspended → m.cause ≠ .none

/-- Both points are as they should be. -/
def State.PointsOk (s : State) : Prop := ∀ p, PointOk (s.point p)

/-- A point is SCANNING or HALTED only while every one of its contributing axes is TRACKING (R64). -/
def State.ScansTrack (s : State) : Prop :=
  ∀ p, (s.point p).running = true → ∀ a, (s.point p).contributes a = true → (s.channels.get a).state = .tracking

/-! ### The line table -/

/-- The canonical form of the listed slots: numbers strictly rising and below 2048, no slot listed that is what an unlisted
one is (log 21), revisions of 16 bits (R71). -/
structure SlotsOk (slots : List (Nat × Slot)) : Prop where
  rising : slots.Pairwise fun a b => a.1 < b.1
  number_range : ∀ e ∈ slots, e.1 < Config.slotCount
  no_blank : ∀ e ∈ slots, e.2 ≠ Slot.blank
  revision_range : ∀ e ∈ slots, e.2.revision ≤ 65535

/-- An entry's definition lies in its ranges (R73). -/
structure DefinitionOk (e : Entry) : Prop where
  key_range : e.key ≤ 65535
  nominal_range : InPositionRange e.nominal
  halfWidth_range : Config.halfWidthMin ≤ e.halfWidth ∧ e.halfWidth ≤ Config.halfWidthMax

/-- The index of a point is in key order, and each window lies strictly below the next (R79, R80). -/
def IndexOrdered (idx : List IndexItem) : Prop := idx.Pairwise fun a b => a.key < b.key ∧ a.upper < b.lower

/-- The line table as it should be: the slots canonical, every live entry's definition in range, each index ordered, and each
index listing exactly the live entries of its point, each as R80 says (R71, R73, R79, R80). -/
structure TableOk (t : LineTable) : Prop where
  slots : SlotsOk t.slots
  definitions : ∀ n e, (t.slot n).entry = some e → DefinitionOk e
  ordered : ∀ p, IndexOrdered (t.index.get p)
  listed : ∀ p, ∀ it ∈ t.index.get p,
    ∃ e, (t.slot it.slot).entry = some e ∧ e.point = p ∧ it = indexItem it.slot (t.slot it.slot).revision e
  complete : ∀ n e, (t.slot n).entry = some e → indexItem n (t.slot n).revision e ∈ t.index.get e.point

/-- A waiting job's parameters have been checked and clamped (R82, R85, R87). -/
def JobOk : Job → Prop
  | .load _ key nominal halfWidth _ _ _ =>
    key ≤ 65535 ∧ InPositionRange nominal ∧ Config.halfWidthMin ≤ halfWidth ∧ halfWidth ≤ Config.halfWidthMax
  | .amend _ key nominal halfWidth _ _ _ =>
    key ≤ 65535 ∧ InPositionRange nominal ∧ Config.halfWidthMin ≤ halfWidth ∧ halfWidth ≤ Config.halfWidthMax
  | .clear _ key => key ≤ 65535
  | .retire _ _ last _ _ => last ≤ 65535
  | .lookup _ key => key ≤ 65535
  | .sweep _ _ copied _ => copied ≤ Config.sweepMax
  | .restart => True

/-- Whatever job the executor holds has its parameters checked. -/
def ExecutorJobOk : Executor → Prop
  | .free => True
  | .waiting j => JobOk j
  | .accessing (.answer _) => True
  | .accessing (.ask j) => JobOk j

/-- The table, and the job that may change it. -/
def State.TableInv (s : State) : Prop := TableOk s.table ∧ ExecutorJobOk s.req.executor

/-- The entry a point's cursor designates is a live entry of the point and eligible under its scan (R101, R105). -/
def Designates (m : MeasuringPoint) (idx : List IndexItem) : Prop :=
  ∀ d, m.cursor.designation = some d → ∃ it ∈ idx, it.slot = d.slot ∧ it.key = d.key ∧ eligible m.scan it = true

/-- Both cursors designate eligible entries of their own points. -/
def State.CursorsInv (s : State) : Prop := s.TableInv ∧ s.PointsOk ∧ ∀ p, Designates (s.point p) (s.index p)

/-! ### Statistics -/

/-- The relation of the four fields of a direction (R74). -/
structure StatsOk (d : DirStats) : Prop where
  n_range : d.n ≤ 65535
  none_yet : d.n = 0 → d.sum = 0 ∧ d.extremes = none
  some_yet : 0 < d.n → ∃ e, d.extremes = some e ∧ -2147483648 ≤ e.min ∧ e.min ≤ e.max ∧ e.max ≤ 2147483647 ∧
    (d.n : Int) * e.min ≤ d.sum ∧ d.sum ≤ (d.n : Int) * e.max

/-- The results of an entry (R74, R75). -/
structure ResultsOk (r : Results) : Prop where
  forward : StatsOk r.forward
  reverse : StatsOk r.reverse
  miss_range : r.missCount ≤ 255
  reject_range : r.rejectCount ≤ 255
  total_range : r.passTotal ≤ 65535
  last_range : ∀ v, r.lastDeviation = some v → -2147483648 ≤ v ∧ v ≤ 2147483647

/-- The results of every entry the table holds. -/
def State.StatisticsInv (s : State) : Prop :=
  ∀ e ∈ s.table.slots, ∀ n, e.2.entry = some n → ResultsOk n.results

/-! ### The ports -/

/-- What each link state says of the response slot and of the executor (R183, R188, R189). -/
def LinkOk (q : RequestPort) : Prop :=
  match q.link with
  | .idle => q.slot = none ∧ q.executor = .free
  | .executing => q.slot = none ∧ q.executor ≠ .free
  | .ready => q.slot.isSome = true ∧ q.executor = .free

/-- The executor is inside an access. -/
def Executor.isAccessing : Executor → Bool
  | .free => false
  | .waiting _ => false
  | .accessing _ => true

/-- What the transaction under way holds: a link status byte whose bits 1-0 are a link state and whose bits 7-3 are 0 (R185,
R202), and, once a FETCH has been found to deliver, the response that waits in the slot (R190, R191). -/
def TransferOk (q : RequestPort) : Prop :=
  ∀ status fetch later, q.transfer = .low status fetch later →
    status.toNat % 4 ≠ 3 ∧ status.toNat < 8 ∧ ∀ r, fetch = .delivers r → q.link = .ready ∧ q.slot = some r

/-- The two ports (R130, R131, R133, R141, R180, R183, R185, R187, R191). -/
structure State.PortsInv (s : State) : Prop where
  link : LinkOk s.req
  transfer : TransferOk s.req
  counts : s.req.discardedCount ≤ 65535 ∧ s.req.malformedCount ≤ 65535
  response_ready : s.notices.flags.get .responseReady = true ↔ s.req.link = .ready
  executor_access : s.port.occupant = .executor ↔ s.req.executor.isAccessing = true
  evaluator_record : s.port.occupant = .evaluator → (s.point s.pointer.other).queue ≠ []
  wait_range : s.port.waitCount ≤ Config.waitLimit
  wait_requesting : s.port.waitCount ≠ 0 → s.executorRequests = true
  left_range : s.port.left ≤ Config.accessPeriods

/-! ### Words for the statements -/

/-- A whole request frame that arrives now is taken: the link is IDLE, and the port does not ignore the transaction (R186,
R199). -/
abbrev State.TakesRequests (s : State) : Prop := s.req.link = .idle ∧ s.req.transfer ≠ .ignored

/-- The request port after a transaction of `n` rising edges of SCK that is no FETCH: CS_N is high, and SDO carried the link status
byte taken at the fall, most significant bit first, and zeros after it (R184, R185, R202). -/
def RequestPort.ended (q : RequestPort) (n : Nat) : RequestPort :=
  { q with
    transfer := .high
    sdo :=
      (byteBits (match q.transfer with | .low status _ _ => status | _ => q.statusByte) ++ List.replicate n false).take n }

/-- The state `s` after a request with `len` parameter bytes was taken and answered with `r` at once, with nothing changed
but the port and the notice of the response (R180, R184, R189). -/
def State.answered (s : State) (len : Nat) (r : Response) : State :=
  { s with
    notices := { s.notices with flags := { s.notices.flags with responseReady := true } }
    req := { s.req.ended (8 * (len + 2) + s.req.later.length) with link := .ready, slot := some r, executor := .free } }

/-- The state `s` after a request with `len` parameter bytes was taken and asks the table port for the access of `j`, with
nothing changed but the port (R131, R184, R189). -/
def State.asking (s : State) (len : Nat) (j : Job) : State :=
  { s with
    req := { s.req.ended (8 * (len + 2) + s.req.later.length) with link := .executing, executor := .waiting j } }

/-- The executor waits for the access of `j`, and the arbiter grants it (R131, R142). -/
def State.Grants (s : State) (j : Job) : Prop := s.req.executor = .waiting j ∧ s.executorGranted = true

/-- The state `s` after an executor access that changed nothing else was granted, with `a` to follow its completion (R130,
R141). -/
def State.accessed (s : State) (a : AfterAccess) : State :=
  { s with
    port := { occupant := .executor, left := 8, waitCount := 0 }
    req := { s.req with executor := .accessing a } }

/-- What an executor access leaves alone, and the port and the executor after it: the channels, the axes of the last sample
and those it put in LOST, the medium, the evaluator's pointer, the routes and the link are as they were (R82, R130, R141). -/
structure AccessFrame (s t : State) (a : AfterAccess) : Prop where
  channels : t.channels = s.channels
  sampled : t.sampled = s.sampled
  lostNow : t.lostNow = s.lostNow
  refok : t.refok = s.refok
  cu : t.cu = s.cu
  pointer : t.pointer = s.pointer
  routes : t.notices.routes = s.notices.routes
  port : t.port = { occupant := .executor, left := 8, waitCount := 0 }
  req : t.req = { s.req with executor := .accessing a }
  pending : t.pending = s.pending

/-- The answer of an accepted edit: the slot and its new revision, two bytes each, little-endian (R195, R204). -/
def editAnswer (clamped : Bool) (slot revision : Nat) : AfterAccess :=
  .answer { status := if clamped then .clamped else .ok, data := leBytes 2 slot ++ leBytes 2 revision }

/-- The window passes the ORDER check: the predecessor's upper edge is below its lower edge, and its upper edge is below the
successor's lower edge; a missing neighbour passes (R81). -/
def PassesOrder (idx : List IndexItem) (key : Nat) (lower upper : Int) : Prop :=
  (∀ it, predecessor idx key = some it → it.upper < lower) ∧ ∀ it, successor idx key = some it → upper < it.lower

/-- The IN_WINDOW check passes: the point is neither SCANNING nor HALTED, or its X lies outside the window (R83). -/
def PassesInWindow (m : MeasuringPoint) (lower upper : Int) : Prop :=
  m.running = true → m.x < lower ∨ upper < m.x

/-- What a close of a SCANNING point gives: the record is appended when it fits and the cursor seeks; otherwise it is lost,
the overrun-lost counter rises, and the point is HALTED with its cursor INACTIVE and raises POINT_HALTED (R123 to R125). `m` is
the point at the offer. -/
def OfferedAtClose (m : MeasuringPoint) (idx : List IndexItem) (r : PassRecord) (result : PointResult) : Prop :=
  (m.queue.length < 2 → result = { m with queue := m.queue ++ [r] }.seek idx) ∧
  (2 ≤ m.queue.length →
    result =
      { point :=
          { m with
            state := .halted, cursor := .inactive
            counters := { m.counters with overrunLost := min 65535 (m.counters.overrunLost + 1) } }
        events := [.pointHalted] })

/-- What a close by STOP SCAN or by entry into SUSPENDED leaves of the point, but for its state and cause: the cursor is
INACTIVE, and an open pass's record has `outcome` and is appended when it fits, or lost and counted; a strobe in progress goes
on in SETTLING (R61, R104, R120, R125). -/
def ClosedStopped (m n : MeasuringPoint) (stale : Bool) (outcome : Outcome) : Prop :=
  (m.passOpen = false → n = { m with cursor := .inactive, state := n.state, cause := n.cause }) ∧
  ∀ d dir r, m.cursor = .opened d dir r →
    (m.queue.length < 2 →
      n =
        { m with
          cursor := .inactive, state := n.state, cause := n.cause
          tracker := m.tracker.atClose
          queue := m.queue ++
            [{ slot := r.slot, revision := r.revision, direction := r.direction, outcome := outcome, stale := stale }] }) ∧
    (2 ≤ m.queue.length →
      n =
        { m with
          cursor := .inactive, state := n.state, cause := n.cause
          tracker := m.tracker.atClose
          counters := { m.counters with overrunLost := min 65535 (m.counters.overrunLost + 1) } })

/-- An open pass with one more complete strobe at `x` (R60). -/
def withStrobe (r : OpenPass) (x : Int) : OpenPass :=
  { r with tally := min 255 (r.tally + 1), firstX := if r.tally = 0 then some x else r.firstX }

/-- The part and its port after a whole request frame arrived at a busy link in a transaction of `n` rising edges of SCK:
discarded, flagged and counted (R184, R186, R187). -/
def State.busyDiscarded (s : State) (n : Nat) : State :=
  { s with
    req :=
      { s.req.ended n with
        discarded := true, discardedCount := min 65535 (s.req.discardedCount + 1) } }

end Sys2Proof.Machine
end

