-- ==== Sys2Proof/Certificates/Slice0/Obligations.lean ====
section
/-! DEFINITION. The statements for the provers. Each docstring names the rules of the manual that the statement formalises. The
words `answered`, `asking`, `accessed`, `Grants` and the invariants are those of Sys2Proof/Safety.lean. -/

open Sys2Proof Sys2Proof.Machine

/-! ### The machine -/

/-- A step takes the command at the front of the queue and runs it with the queue's rest. The queue is the model's (log 1). -/
def Obligations.StepRunsTheFrontCommand : Prop :=
  ∀ (c : Instr) (rest : List Instr) (s : State),
    step { s with pending := c :: rest } = exec c { s with pending := rest }

/-- With no command waiting, a step queues the access the arbiter grants now: the evaluator's when the port is free, a pass queue
holds a record, and no executor waits or the wait count is below 4; the waiting job's when the port is free and no record waits or
the wait count is 4 (R131, R141, R142). With nothing to grant it lets one CLKIN period pass, which ends the moment of a sample (log
30), and queues the events then due, each once and no others: the completion of the access, then for each point the completion of
its pulse and the end of its trigger pulse, then the tick or the expiry. This is the model's choice of a clock (log 2) and of an
order (log 14); the periods are those of R52, R57, R114, R130, R155. -/
def Obligations.IdleStepGrantsOrCountsOnePeriod : Prop :=
  ∀ s : State, s.pending = [] → s.cu.msPeriods < 80000 →
    let records : Prop := (s.point .mp0).queue ≠ [] ∨ (s.point .mp1).queue ≠ []
    let evaluator : Prop :=
      s.port.occupant = .free ∧ records ∧ ((∀ j, s.req.executor ≠ .waiting j) ∨ s.port.waitCount < 4)
    let executor (j : Job) : Prop :=
      s.port.occupant = .free ∧ s.req.executor = .waiting j ∧ (¬records ∨ 4 ≤ s.port.waitCount)
    (evaluator → step s = .next { s with pending := [.evaluatorAccess] }) ∧
    (∀ j, executor j → step s = .next
      { s with
        pending :=
          [match j with
            | .load _ _ _ _ _ _ _ => .loadEntryAccess
            | .amend _ _ _ _ _ _ _ => .amendEntryAccess
            | .clear _ _ => .clearEntryAccess
            | .retire _ _ _ _ _ => .retireStep
            | .lookup _ _ => .lookupEntryAccess
            | .sweep _ _ _ _ => .sweepStep
            | .restart => .restartAccess] }) ∧
    (¬evaluator → (∀ j, ¬executor j) →
      ∃ t, step s = .next t ∧ t.channels = s.channels ∧ t.sampled = s.sampled ∧ t.lostNow = .all false ∧
        t.refok = s.refok ∧ t.table = s.table ∧ t.pointer = s.pointer ∧ t.notices = s.notices ∧ t.req = s.req ∧
        t.port = { s.port with left := s.port.left - 1 } ∧
        t.cu = { s.cu with msPeriods := if s.cu.msPeriods = 79999 then 0 else s.cu.msPeriods + 1 } ∧
        (∀ p, (s.point p).state = .disabled →
          t.point p = { s.point p with trgLeft := (s.point p).trgLeft - 1 }) ∧
        (∀ p, (s.point p).state ≠ .disabled → (s.point p).tracker.inProgress = false →
          t.point p = { s.point p with stbKept := (s.point p).stb, trgLeft := (s.point p).trgLeft - 1 }) ∧
        (∀ p x n, (s.point p).state ≠ .disabled → (s.point p).tracker = .qualifying x n →
          t.point p =
            { s.point p with
              stbKept := (s.point p).stb, trgLeft := (s.point p).trgLeft - 1
              tracker := .qualifying x (if (s.point p).stb = (s.point p).config.mode.activeLevel then n + 1 else n) }) ∧
        let access : List Instr :=
          match t.port.occupant with
          | .free => []
          | .evaluator => if t.port.left = 0 then [.evaluatorAccessComplete] else []
          | .executor => if t.port.left = 0 then [.executorAccessComplete] else []
        let pulse (p : Point) : List Instr :=
          match (t.point p).tracker with
          | .noPulse => []
          | .settling => []
          | .qualifying _ n =>
            if ((t.point p).config.mode = .edgeRise ∨ (t.point p).config.mode = .edgeFall) ∧
                (t.point p).config.minPeriods ≤ n then [.strobeCompletion p]
            else []
        let trigger (p : Point) : List Instr :=
          if (t.point p).trg = true ∧ (t.point p).trgLeft = 0 then [.triggerPulseEnd p] else []
        let tick : List Instr :=
          if t.cu.msPeriods = 0 then
            if t.cu.timerEnable = true ∧ t.cu.timerCount = 0 then [.expiry] else [.millisecondTick]
          else []
        t.pending = access ++ (pulse .mp0 ++ trigger .mp0) ++ (pulse .mp1 ++ trigger .mp1) ++ tick)

/-- Who is granted the table port while the executor waits for an access (R131, R141, R142). That an access command which is not
granted leaves the part as it is is the model's choice (log 6). -/
def Obligations.ArbiterGrantsByTheWaitCount : Prop :=
  ∀ (s : State) (j : Job), s.req.executor = .waiting j →
    (s.port.occupant ≠ .free → exec .evaluatorAccess s = .next s ∧ exec j.accessCommand s = .next s) ∧
    (s.port.occupant = .free → ((s.point .mp0).queue ≠ [] ∨ (s.point .mp1).queue ≠ []) → s.port.waitCount < 4 →
      exec j.accessCommand s = .next s ∧
        ∃ t, exec .evaluatorAccess s = .next t ∧ t.req = s.req ∧
          t.port = { occupant := .evaluator, left := 8, waitCount := s.port.waitCount + 1 }) ∧
    (s.port.occupant = .free → ((s.point .mp0).queue ≠ [] ∨ (s.point .mp1).queue ≠ []) → s.port.waitCount = 4 →
      exec .evaluatorAccess s = .next s ∧
        ∃ t, exec j.accessCommand s = .next t ∧ t.req.executor.isAccessing = true ∧
          t.port = { occupant := .executor, left := 8, waitCount := 0 }) ∧
    (s.port.occupant = .free → (s.point .mp0).queue = [] → (s.point .mp1).queue = [] →
      ∃ t, exec j.accessCommand s = .next t ∧ t.req.executor.isAccessing = true ∧
        t.port = { occupant := .executor, left := 8, waitCount := 0 })

/-! ### Reset -/

/-- What every block holds after power-on (R25, R42, R69, R98, R129, R151, R172, R181, R199): the values, and that POWER_ON_RESET
gives them. The model's choices in it: the strobe lines' levels at reset, kept by POWER_ON_RESET (log 5, log 19), the counts of
periods (log 15), CS_N high in the state after reset and kept by POWER_ON_RESET, which ignores a transaction whose CS_N stays low
(log 19), the SDO record (log 10), the count of ignored transactions (log 24), the axes of the last sample before there is one (log
27), no axis lost by it (log 30), and the queue, which stays (log 1). -/
def Obligations.PowerOnResetGivesThePowerOnValues : Prop :=
  ((∀ a, State.reset.channels.get a =
     { state := .off, lostCause := .none, count := 0, lastPhase := none, hold := 0, history := [], dropouts := 0,
       sigok := false, fitted := false, wavelength := 632991212, fold := 2, invert := false, dropLimit := 40,
       q := 663739393114, kc := 663739393114 }) ∧
   (∀ a, State.reset.sampled.get a = State.reset.channels.get a) ∧
   (∀ a, State.reset.lostNow.get a = false) ∧
   State.reset.refok = false ∧
   State.reset.cu =
     { activeW := .all 0, activeGeneration := 0, pendingSet := none, debt := 0, age := 0, stale := false,
       timerCount := 999, timerPeriod := 999, timerEnable := false, staleLimit := 120, hpMark := 4, panicMark := 8,
       guard := 20000000, commitHold := false, lastCommit := .none, msPeriods := 0 } ∧
   (∀ p, State.reset.point p =
     { state := .disabled, cause := .none, x := 0, prevX := 0, vx := 0, direction := none, tracker := .noPulse,
       stb := false, stbKept := false, scan := { first := 0, last := 0, stride := 1 }, cursor := .inactive, queue := [],
       counters := { stray := 0, glitch := 0, heldStrobe := 0, overrunLost := 0, orphaned := 0 }, trg := false,
       trgLeft := 0
       config :=
         { enabled := false, mode := .edgeRise, tau := 0, width := 0, hyst := 200, lead := 0
           coeffs := if p = .mp0 then ⟨1048576, 0, 0, 0, 0, 0⟩ else ⟨0, 1048576, 0, 0, 0, 0⟩ } }) ∧
   (∀ n, State.reset.table.slot n = { revision := 0, entry := none }) ∧
   (∀ p, State.reset.index p = []) ∧
   State.reset.port = { occupant := .free, left := 0, waitCount := 0 } ∧
   State.reset.pointer = .mp0 ∧
   (∀ k, State.reset.notices.flags.get k = false ∧ State.reset.notices.routes.get k = .nowhere) ∧
   State.reset.req =
     { link := .idle, slot := none, discarded := false, discardedCount := 0, malformedCount := 0, executor := .free,
       transfer := .high, sdo := [], ignoredCount := 0 } ∧
   State.reset.pending = []) ∧
  (∀ s : State, exec .powerOnReset s = .next
     { State.reset with
       points :=
         { mp0 := { State.reset.points.mp0 with stb := s.points.mp0.stb }
           mp1 := { State.reset.points.mp1 with stb := s.points.mp1.stb } }
       req :=
         { State.reset.req with
           transfer := match s.req.transfer with | .high => .high | .low _ _ _ => .ignored | .ignored => .ignored
           ignoredCount := s.req.ignoredCount }
       pending := s.pending })


/-- R98. -/
def Obligations.PowerOnLeavesTheTableEmpty : Prop :=
  ∀ s : State, ∃ t, exec .powerOnReset s = .next t ∧
    (∀ n, n < 2048 → t.table.slot n = { revision := 0, entry := none }) ∧ (∀ p, t.index p = []) ∧
    t.table.freeCount = 2048 ∧ t.table.occupancyBytes = leBytes 2 0 ++ leBytes 2 0 ++ leBytes 2 2048

/-! ### Invariants that every step keeps -/

/-- The ranges and relations of the channels, Kc among them (R2, R3, R8 to R13, R15, R16, R26 to R28), and of the axes as the most
recent phase sample left them, these given that the channels and the compensation unit are as they should be (R30, R46). An axis that a
phase sample of this moment put in LOST stays LOST or is not seeded (R16, R20, R23). -/
def Obligations.EveryStepKeepsTheChannels : Prop :=
  (∀ s t : State, s.ChannelsOk → step s = .next t → t.ChannelsOk) ∧
  (∀ s t : State, s.ChannelsOk → CuOk s.cu → s.SampledOk → step s = .next t → t.SampledOk) ∧
  ∀ s t : State, s.LostNowOk → step s = .next t → t.LostNowOk

/-- The ranges and relations of the compensation unit: no debt without a pending set, and the debt below the panic mark
(R30, R31, R154, R159 to R162). -/
def Obligations.EveryStepKeepsTheCompensationUnit : Prop :=
  ∀ s t : State, CuOk s.cu → step s = .next t → CuOk t.cu

/-- The ranges and relations of the points, the cursor's by R101 among them (R43 to R53, R67, R100, R101, R124). -/
def Obligations.EveryStepKeepsThePoints : Prop :=
  ∀ s t : State, s.PointsOk → step s = .next t → t.PointsOk

/-- A point is SCANNING or HALTED only while every one of its contributing axes is TRACKING (R64). -/
def Obligations.EveryStepKeepsScansTracking : Prop :=
  ∀ s t : State, s.ScansTrack → step s = .next t → t.ScansTrack

/-- The line table: slots, definitions, the order of R79, and each index listing exactly its point's live entries (R71, R73,
R79, R80). The canonical form of the slot list is the model's (log 21). -/
def Obligations.EveryStepKeepsTheLineTable : Prop :=
  ∀ s t : State, s.TableInv → step s = .next t → t.TableInv

/-- The designated entry of each point is a live entry of that point, eligible under its scan (R101, R105). -/
def Obligations.EveryStepKeepsTheCursorsEligible : Prop :=
  ∀ s t : State, s.CursorsInv → step s = .next t → t.CursorsInv

/-- The relation of the statistics of R74, for every entry the table holds. -/
def Obligations.EveryStepKeepsTheStatistics : Prop :=
  ∀ s t : State, s.StatisticsInv → step s = .next t → t.StatisticsInv

/-- The link state, the response slot, the executor, the table port, RESPONSE_READY and the transaction under way agree (R130, R131, R133,
R141, R180, R183, R185, R188, R189, R191). -/
def Obligations.EveryStepKeepsThePorts : Prop :=
  ∀ s t : State, s.PortsInv → step s = .next t → t.PortsInv

/-- Every one of these invariants holds after reset (R25, R42, R69, R98, R129, R151, R172, R181, R199). -/
def Obligations.ResetMeetsEveryInvariant : Prop :=
  State.reset.ChannelsOk ∧ State.reset.SampledOk ∧ State.reset.LostNowOk ∧ CuOk State.reset.cu ∧ State.reset.PointsOk ∧
    State.reset.ScansTrack ∧ State.reset.TableInv ∧ State.reset.CursorsInv ∧ State.reset.StatisticsInv ∧ State.reset.PortsInv

/-- The number of live entries of each point is that of its index, and the three occupancy numbers sum to 2048 (R80, R97). -/
def Obligations.OccupancyNumbersSumToAllSlots : Prop :=
  ∀ t : LineTable, TableOk t →
    (∀ p, t.liveCount p = (t.index.get p).length) ∧ t.liveCount .mp0 + t.liveCount .mp1 + t.freeCount = 2048

/-! ### Arithmetic -/

/-- R1: to the nearest integer, halves away from zero. -/
def Obligations.RoundingIsToNearestHalvesAway : Prop :=
  (∀ n d : Int, 0 < d →
    2 * |n - d * roundDiv n d| ≤ d ∧ (2 * |n - d * roundDiv n d| = d → |n| < |d * roundDiv n d|)) ∧
  roundDiv 5 2 = 3 ∧ roundDiv (-5) 2 = -3

/-- Vx needs no saturation: its magnitude stays below 40,000,000 (R49), and every Kc below 2,311,481,000,000 (R26, R27, R49); also where
a request forms Vx from the axes as the most recent phase sample left them (R46). -/
def Obligations.VelocityStaysBelowFortyMillion : Prop :=
  ∀ (s : State) (coeffs : Axes Int), (∀ a, -2097152 ≤ coeffs.get a ∧ coeffs.get a ≤ 2097152) →
    (s.ChannelsOk → WInRange s.cu.activeW →
      (∀ a, 0 < (s.channels.get a).kc ∧ (s.channels.get a).kc < 2311481000000) ∧
        |formVx coeffs s.channels| < 40000000) ∧
    (s.SampledOk → |formVx coeffs s.sampled| < 40000000)

/-! ### Fringe channels -/


/-- The step between two phases is their difference taken the shorter way round, negated under invert (R7). What a phase sample that
finds a channel's lines good does to it: an OFF channel is not changed, an unseeded or LOST one takes the phase, and a seeded counting one
ends a hold, forms a step, and counts it or is lost by RATE or RANGE (R4 to R10, R13, R15, R16). Kc may change by a commit taken at the
same sample; nothing else of the channel does. -/
def Obligations.GoodSampleActsOnEveryChannel : Prop :=
  (∀ last phase : Phase,
     (stepOf false last phase - ((phase.val : Int) - (last.val : Int))) % 1024 = 0 ∧
     -512 ≤ stepOf false last phase ∧ stepOf false last phase ≤ 511 ∧
     stepOf true last phase = -stepOf false last phase) ∧
  (∀ (s : State) (phases : Axes Phase) (sigok : Axes Bool), ∃ t, exec (.phaseSample phases sigok true) s = .next t ∧
     t.refok = true ∧ ∀ a, sigok.get a = true → (s.channels.get a).history.length ≤ 16 →
       let c := { s.channels.get a with sigok := true, kc := (t.channels.get a).kc }
       let c' := t.channels.get a
       (c.state = .off → c' = c) ∧
       (c.state = .lost → c' = { c with lastPhase := some (phases.get a) }) ∧
       ((c.state = .relative ∨ c.state = .tracking) →
         (c.lastPhase = none → c' = { c with lastPhase := some (phases.get a) }) ∧
         ∀ last, c.lastPhase = some last →
           let d := stepOf c.invert last (phases.get a)
           let u := { c with hold := 0, dropouts := if c.hold = 0 then c.dropouts else min 255 (c.dropouts + 1) }
           (384 < |d| → c' = { u with state := .lost, lostCause := .rate }) ∧
           (|d| ≤ 384 → 549755813887 < c.count + d →
             c' = { u with state := .lost, lostCause := .range, count := 549755813887 }) ∧
           (|d| ≤ 384 → c.count + d < -549755813887 →
             c' = { u with state := .lost, lostCause := .range, count := -549755813887 }) ∧
           (|d| ≤ 384 → -549755813887 ≤ c.count + d → c.count + d ≤ 549755813887 →
             c' =
               { u with
                 count := c.count + d, lastPhase := some (phases.get a)
                 history := (c.history ++ [d]).drop (c.history.length - 15) })))

/-- What a phase sample that finds a channel's lines not good does to it: a seeded counting channel enters or continues its
hold, or is lost by DROPOUT when the hold counter reaches D; a LOST one becomes not seeded; the others stay (R6, R11, R12, R14,
R16). -/
def Obligations.BadSampleHoldsOrLosesEveryChannel : Prop :=
  ∀ (s : State) (phases : Axes Phase) (sigok : Axes Bool) (refok : Bool),
    ∃ t, exec (.phaseSample phases sigok refok) s = .next t ∧
      t.refok = refok ∧ ∀ a, (sigok.get a && refok) = false →
        let c := { s.channels.get a with sigok := sigok.get a, kc := (t.channels.get a).kc }
        let c' := t.channels.get a
        (c.state = .off → c' = c) ∧
        (c.state = .lost → c' = { c with lastPhase := none }) ∧
        ((c.state = .relative ∨ c.state = .tracking) →
          (c.lastPhase = none → c' = c) ∧
          (c.lastPhase ≠ none → c.hold + 1 < c.dropLimit → c' = { c with hold := c.hold + 1 }) ∧
          (c.lastPhase ≠ none → c.dropLimit ≤ c.hold + 1 →
            c' = { c with state := .lost, lostCause := .dropout, hold := 0 }))


/-- X, Vx and the direction that an enabled point forms at a phase sample, from the axes as the sample left them and Kc as it
stood before a commit of the same sample (R4, R37, R48 to R50); the part keeps those axes (R46). In IDLE and SUSPENDED nothing else of
the point changes (R51), and a DISABLED point does not change (R44). -/
def Obligations.SampleFormsEveryPosition : Prop :=
  ∀ (s : State) (phases : Axes Phase) (sigok : Axes Bool) (refok : Bool),
    ∃ t, exec (.phaseSample phases sigok refok) s = .next t ∧
      (∀ a, t.sampled.get a = { t.channels.get a with kc := (s.channels.get a).kc }) ∧ ∀ p,
      let m := s.point p
      let chs : Axes Channel := .ofFn fun a => { t.channels.get a with kc := (s.channels.get a).kc }
      let x := roundDiv (sumAxes fun a => m.config.coeffs.get a * (chs.get a).position) 1048576
      let vx := roundDiv (sumAxes fun a => m.config.coeffs.get a * (chs.get a).history.sum * (chs.get a).kc)
        4503599627370496
      let u : MeasuringPoint :=
        { m with
          prevX := m.x, vx := vx
          x := if 140737488355327 < x then 140737488355327 else if x < -140737488355327 then -140737488355327 else x
          direction :=
            if (m.config.hyst : Int) ≤ vx then some .forward
            else if vx ≤ -(m.config.hyst : Int) then some .reverse
            else m.direction }
      (m.state ≠ .disabled →
        (t.point p).x = u.x ∧ (t.point p).prevX = u.prevX ∧ (t.point p).vx = u.vx ∧
          (t.point p).direction = u.direction) ∧
      ((m.state = .idle ∨ m.state = .suspended) → m.passOpen = false → t.point p = u) ∧
      (m.state = .disabled → m.passOpen = false → t.point p = m)

/-- A phase sample raises REF_LOST at a fall of REFOK, AXIS_LOST at an entry into LOST, and what the points raise in taking losses
and updates, and no other kind (R14, R15, R64, R115, R125). It hands the losses to each point before the point takes its update,
with every Kc as it stood, and keeps the axes as the sample left them (R46) and which of them it put in LOST (R23); it changes
nothing else of the part; and it ends with an examination, which does nothing while no pending set exists (R4, R15, R23, R46, R64,
R115, R164). -/
def Obligations.SampleHandsLossesThenUpdates : Prop :=
  ∀ (s : State) (phases : Axes Phase) (sigok : Axes Bool) (refok : Bool),
    ∃ u : State, exec (.phaseSample phases sigok refok) s = .next u.examine ∧
      (∀ a, u.channels.get a = { u.examine.channels.get a with kc := (s.channels.get a).kc }) ∧
      u.sampled = u.channels ∧ u.examine.sampled = u.channels ∧
      (let lost (a : Axis) : Bool :=
         decide ((s.channels.get a).state ≠ .lost) && decide ((u.channels.get a).state = .lost)
       let loss (p : Point) : PointResult := (s.point p).takeLoss s.cu.stale lost
       let update (p : Point) : PointResult := (loss p).point.positionUpdate u.channels (s.index p) s.cu.stale
       (∀ a, u.lostNow.get a = lost a) ∧ u.examine.lostNow = u.lostNow ∧
       (∀ p, u.point p = (update p).point) ∧
       ∀ k, u.notices.flags.get k = true ↔
         s.notices.flags.get k = true ∨ (k = .refLost ∧ s.refok = true ∧ refok = false) ∨
           (k = .axisLost ∧ ∃ a, lost a = true) ∨ ∃ p, k ∈ (loss p).events ∨ k ∈ (update p).events) ∧
      u.refok = refok ∧ u.cu = s.cu ∧ u.table = s.table ∧ u.port = s.port ∧ u.pointer = s.pointer ∧ u.req = s.req ∧
      u.pending = s.pending ∧ u.notices.routes = s.notices.routes ∧
      (s.cu.pendingSet = none → u.examine = u)

/-! ### Points losing an axis or the range -/

/-- The loss of a contributing axis suspends a SCANNING or HALTED point, and no other (R15, R64, R65), and so does a rounded X
outside the position range (R48, R115 stage 1). An open pass closes as AXIS_LOST and is offered, POINT_SUSPENDED is raised, and
POINT_HALTED is not (R64, R120, R125). -/
def Obligations.SuspensionByLossOrRange : Prop :=
  (∀ (m : MeasuringPoint) (stale : Bool) (lost : Axis → Bool),
     ((m.state = .scanning ∨ m.state = .halted) → (∃ a, m.config.coeffs.get a ≠ 0 ∧ lost a = true) →
       ∃ n, m.takeLoss stale lost = { point := n, events := [.pointSuspended] } ∧ n.state = .suspended ∧
         n.cause = .axisLost ∧ ClosedStopped m n stale .axisLost) ∧
     ((m.state ≠ .scanning ∧ m.state ≠ .halted) ∨ (∀ a, m.config.coeffs.get a ≠ 0 → lost a = false) →
       m.takeLoss stale lost = { point := m, events := [] })) ∧
  (∀ (m : MeasuringPoint) (chs : Axes Channel) (idx : List IndexItem) (stale : Bool),
     (m.state = .scanning ∨ m.state = .halted) →
     140737488355327 < |roundDiv (sumAxes fun a => m.config.coeffs.get a * (chs.get a).position) 1048576| →
       ∃ n, m.positionUpdate chs idx stale = { point := n, events := [.pointSuspended] } ∧ n.state = .suspended ∧
         n.cause = .range ∧ ClosedStopped (m.formUpdate chs) n stale .axisLost)


/-! ### Seeking and windows -/


/-- An entry is eligible by the scan's range and stride with its hold flag clear (R105). A seek designates the nearest eligible entry
ahead of X: in FORWARD the one with the least lower edge, in REVERSE the one with the greatest upper edge. The arming copies its
index item and sets its trigger point, which may fire at once; the same slot with the same revision in the same direction keeps its
arming; with none ahead, or with direction NONE, the cursor goes to END and raises SCAN_END if it was not there (R106, R107, R111,
R112). An entry is ahead when X is strictly before its near edge (R106); an arming is the same when the cursor is ARMED on its slot, with
its revision, in its direction (R107), the model's choice where the revision has come round since (log 29). -/
def Obligations.SeekDesignatesTheNearestEligibleAhead : Prop :=
  (∀ (sc : Scan) (it : IndexItem), 1 ≤ sc.stride →
     (eligible sc it = true ↔
       sc.first ≤ it.key ∧ it.key ≤ sc.last ∧ (∃ k, it.key = sc.first + k * sc.stride) ∧ it.hold = false)) ∧
  (∀ (dir : Travel) (x : Int) (it : IndexItem),
     ahead dir x it = true ↔ (dir = .forward ∧ x < it.lower) ∨ (dir = .reverse ∧ it.upper < x)) ∧
  (∀ (c : Cursor) (dir : Travel) (it : IndexItem),
     c.sameArming it dir = true ↔ ∃ d tr, c = .armed d dir tr ∧ d.slot = it.slot ∧ d.revision = it.revision) ∧
  (∀ (m : MeasuringPoint) (idx : List IndexItem), IndexOrdered idx → (∀ it ∈ idx, it.lower ≤ it.upper) →
     (∀ it ∈ idx, ∀ dir, m.direction = some dir → eligible m.scan it = true → ahead dir m.x it = true →
       (∀ o ∈ idx, eligible m.scan o = true → ahead dir m.x o = true →
         (dir = .forward → it.lower ≤ o.lower) ∧ (dir = .reverse → o.upper ≤ it.upper)) →
       let trigger := if dir = .forward then it.lower - (m.config.lead : Int) else it.upper + (m.config.lead : Int)
       let reached := (dir = .forward ∧ trigger ≤ m.x) ∨ (dir = .reverse ∧ m.x ≤ trigger)
       let d : Designation := { slot := it.slot, key := it.key, revision := it.revision, lower := it.lower,
                                upper := it.upper, trigger := it.trigger }
       (m.cursor.sameArming it dir = true → m.seek idx = { point := m, events := [] }) ∧
       (m.cursor.sameArming it dir = false → it.trigger = false →
         m.seek idx = { point := { m with cursor := .armed d dir none }, events := [] }) ∧
       (m.cursor.sameArming it dir = false → it.trigger = true → ¬reached →
         m.seek idx =
           { point := { m with cursor := .armed d dir (some { position := trigger, fired := false }) }, events := [] }) ∧
       (m.cursor.sameArming it dir = false → it.trigger = true → reached →
         m.seek idx =
           { point :=
               { m with
                 cursor := .armed d dir (some { position := trigger, fired := true }), trg := true, trgLeft := 80 }
             events := [] })) ∧
     ((m.direction = none ∨
         ∃ dir, m.direction = some dir ∧ ∀ it ∈ idx, ¬(eligible m.scan it = true ∧ ahead dir m.x it = true)) →
       m.seek idx =
         { point := { m with cursor := .atEnd }, events := if m.cursor = .atEnd then [] else [.scanEnd] }))

/-- An edit handed to a point makes its cursor seek in the cases of the table of R109, and in no other. -/
def Obligations.HandedEditSeeksAsTheTableSays : Prop :=
  ∀ (m : MeasuringPoint) (idx : List IndexItem) (key : Nat) (before after : Option IndexItem),
    (m.state ≠ .scanning → m.handEdit idx key before after = { point := m, events := [] }) ∧
    (m.passOpen = true → m.handEdit idx key before after = { point := m, events := [] }) ∧
    (m.cursor = .atEnd → m.direction = none → m.handEdit idx key before after = { point := m, events := [] }) ∧
    (m.state = .scanning → m.cursor = .atEnd → ∀ dir, m.direction = some dir →
      ((∃ it, (before = some it ∨ after = some it) ∧ eligible m.scan it = true ∧ ahead dir m.x it = true) →
        m.handEdit idx key before after = m.seek idx) ∧
      (¬(∃ it, (before = some it ∨ after = some it) ∧ eligible m.scan it = true ∧ ahead dir m.x it = true) →
        m.handEdit idx key before after = { point := m, events := [] })) ∧
    (m.state = .scanning → ∀ d dir tr, m.cursor = .armed d dir tr → m.direction = some dir →
      (d.key = key → m.handEdit idx key before after = m.seek idx) ∧
      (d.key ≠ key →
        (∃ it, (before = some it ∨ after = some it) ∧ eligible m.scan it = true ∧ ahead dir m.x it = true) →
        (dir = .forward → key < d.key) → (dir = .reverse → d.key < key) →
          m.handEdit idx key before after = m.seek idx) ∧
      (d.key ≠ key →
        (¬(∃ it, (before = some it ∨ after = some it) ∧ eligible m.scan it = true ∧ ahead dir m.x it = true) ∨
          (dir = .forward ∧ d.key < key) ∨ (dir = .reverse ∧ key < d.key)) →
          m.handEdit idx key before after = { point := m, events := [] }))

/-- A SCANNING point whose ARMED window holds the new X opens it: the trigger is tested first, the pass record takes the index's
revision and the direction of the update, and no event is raised (R113, R115, R116). -/
def Obligations.UpdateInsideTheArmedWindowOpensIt : Prop :=
  ∀ (m : MeasuringPoint) (chs : Axes Channel) (idx : List IndexItem) (stale : Bool) (d : Designation) (dir dr : Travel)
    (tr : Option TriggerPoint) (it : IndexItem),
    m.state = .scanning → m.cursor = .armed d dir tr →
    |roundDiv (sumAxes fun a => m.config.coeffs.get a * (chs.get a).position) 1048576| ≤ 140737488355327 →
    (m.formUpdate chs).direction = m.direction → m.direction = some dr → findSlot idx d.slot = some it →
    d.lower ≤ (m.formUpdate chs).x → (m.formUpdate chs).x ≤ d.upper →
      let u := m.formUpdate chs
      let fires := ∃ tp, tr = some tp ∧ tp.fired = false ∧
        ((dir = .forward ∧ tp.position ≤ u.x) ∨ (dir = .reverse ∧ u.x ≤ tp.position))
      let opened : Cursor := .opened { d with revision := it.revision } dir
        { slot := d.slot, revision := it.revision, entrySide := if dr = .forward then .low else .high, direction := dr,
          tally := 0, firstX := none, split := false }
      (fires → m.positionUpdate chs idx stale =
        { point := { u with cursor := opened, trg := true, trgLeft := 80 }, events := [] }) ∧
      (¬fires → m.positionUpdate chs idx stale = { point := { u with cursor := opened }, events := [] })

/-- A SCANNING point that crosses its ARMED window in one update tests its trigger, which may fire at that update, opens a pass and closes
it as JUMPED (R113, R117, R122 to R125). -/
def Obligations.UpdateAcrossTheArmedWindowJumpsIt : Prop :=
  ∀ (m : MeasuringPoint) (chs : Axes Channel) (idx : List IndexItem) (stale : Bool) (d : Designation) (dir dr : Travel)
    (tr : Option TriggerPoint) (it : IndexItem),
    m.state = .scanning → m.cursor = .armed d dir tr → m.tracker.inProgress = false →
    |roundDiv (sumAxes fun a => m.config.coeffs.get a * (chs.get a).position) 1048576| ≤ 140737488355327 →
    (m.formUpdate chs).direction = m.direction → m.direction = some dr → findSlot idx d.slot = some it →
    d.lower ≤ d.upper →
    ((dir = .forward ∧ m.x < d.lower ∧ d.upper < (m.formUpdate chs).x) ∨
      (dir = .reverse ∧ d.upper < m.x ∧ (m.formUpdate chs).x < d.lower)) →
      let u := m.formUpdate chs
      let fires := ∃ tp, tr = some tp ∧ tp.fired = false ∧
        ((dir = .forward ∧ tp.position ≤ u.x) ∨ (dir = .reverse ∧ u.x ≤ tp.position))
      let record : PassRecord :=
        { slot := d.slot, revision := it.revision, direction := dr, outcome := .jumped, stale := stale }
      ∃ c, (∃ d' r, c = .opened d' dir r) ∧
        (fires → OfferedAtClose { u with cursor := c, trg := true, trgLeft := 80 } idx record
          (m.positionUpdate chs idx stale)) ∧
        (¬fires → OfferedAtClose { u with cursor := c } idx record (m.positionUpdate chs idx stale))

/-- A SCANNING point that stays short of its ARMED window, or inside its open one, keeps its cursor, and the trigger of an ARMED
window may fire (R113, R115, R117, R118). At END without a change of direction, and in HALTED with X in range, an update forms X, Vx
and the direction and does nothing else (R108, R115, R127). A change of direction makes an ARMED cursor, or one at END, seek with
the new direction and X; the entry it arms is ahead, so the tests that follow change nothing more (R108, R115). -/
def Obligations.UpdateShortOfAWindowOrTurning : Prop :=
  (∀ (m : MeasuringPoint) (chs : Axes Channel) (idx : List IndexItem) (stale : Bool) (d : Designation) (dir : Travel),
     m.state = .scanning → d.lower ≤ d.upper →
     |roundDiv (sumAxes fun a => m.config.coeffs.get a * (chs.get a).position) 1048576| ≤ 140737488355327 →
       let u := m.formUpdate chs
       (∀ r, m.cursor = .opened d dir r → d.lower ≤ u.x → u.x ≤ d.upper →
         m.positionUpdate chs idx stale = { point := u, events := [] }) ∧
       (∀ tr, m.cursor = .armed d dir tr → u.direction = m.direction →
         ((dir = .forward ∧ u.x < d.lower) ∨ (dir = .reverse ∧ d.upper < u.x)) →
         (∀ tp, tr = some tp → tp.fired = false →
           (dir = .forward → tp.position ≤ u.x) → (dir = .reverse → u.x ≤ tp.position) →
             m.positionUpdate chs idx stale =
               { point :=
                   { u with cursor := .armed d dir (some { tp with fired := true }), trg := true, trgLeft := 80 }
                 events := [] }) ∧
         ((∀ tp, tr = some tp → tp.fired = true ∨ (dir = .forward ∧ u.x < tp.position) ∨
             (dir = .reverse ∧ tp.position < u.x)) →
           m.positionUpdate chs idx stale = { point := u, events := [] }))) ∧
  (∀ (m : MeasuringPoint) (chs : Axes Channel) (idx : List IndexItem) (stale : Bool),
     |roundDiv (sumAxes fun a => m.config.coeffs.get a * (chs.get a).position) 1048576| ≤ 140737488355327 →
     (m.state = .halted ∨
       (m.state = .scanning ∧ m.cursor = .atEnd ∧ (m.formUpdate chs).direction = m.direction)) →
       m.positionUpdate chs idx stale = { point := m.formUpdate chs, events := [] }) ∧
  (∀ (m : MeasuringPoint) (chs : Axes Channel) (idx : List IndexItem) (stale : Bool) (dir : Travel),
     m.state = .scanning → (m.cursor = .atEnd ∨ ∃ d dir' tr, m.cursor = .armed d dir' tr ∧ dir' ≠ dir) →
     |roundDiv (sumAxes fun a => m.config.coeffs.get a * (chs.get a).position) 1048576| ≤ 140737488355327 →
     (m.formUpdate chs).direction = some dir → m.direction ≠ some dir → (∀ it ∈ idx, it.lower ≤ it.upper) →
       m.positionUpdate chs idx stale = (m.formUpdate chs).seek idx)


/-- A SCANNING point whose X leaves its open window closes the pass at that update: RETURNED by the entry side, otherwise by the
split mark, the tally and the strobe in progress; the record is offered, and a strobe in progress goes on in SETTLING (R61, R119,
R121 to R125). -/
def Obligations.UpdateOutsideTheOpenWindowClosesThePass : Prop :=
  ∀ (m : MeasuringPoint) (chs : Axes Channel) (idx : List IndexItem) (stale : Bool) (d : Designation) (dir : Travel)
    (r : OpenPass) (side : Side) (x : Int),
    m.state = .scanning → m.cursor = .opened d dir r → d.lower ≤ d.upper → (r.tally = 1 → r.firstX = some x) →
    |roundDiv (sumAxes fun a => m.config.coeffs.get a * (chs.get a).position) 1048576| ≤ 140737488355327 →
    ((side = .low ∧ (m.formUpdate chs).x < d.lower) ∨ (side = .high ∧ d.upper < (m.formUpdate chs).x)) →
      let inProgress := m.tracker.inProgress
      OfferedAtClose { m.formUpdate chs with tracker := if inProgress then .settling else m.tracker } idx
        { slot := r.slot, revision := r.revision, direction := r.direction, stale := stale
          outcome :=
            if side = r.entrySide then .returned
            else if r.split then .split
            else if 2 ≤ r.tally ∨ (r.tally = 1 ∧ inProgress = true) then .multiple
            else if r.tally = 0 ∧ inProgress = true then .incomplete
            else if r.tally = 0 then .missed
            else .matched x }
        (m.positionUpdate chs idx stale)

/-- R121: the first row of the table whose condition holds. -/
def Obligations.OutcomeIsTheFirstRowThatHolds : Prop :=
  ∀ (r : OpenPass) (inProgress : Bool) (x : Int) (cause : CloseCause), (r.tally = 1 → r.firstX = some x) →
    r.outcome cause inProgress =
      if cause = .stopScan then .aborted
      else if cause = .suspended then .axisLost
      else if cause = .exit r.entrySide then .returned
      else if cause = .jumped then .jumped
      else if r.split then .split
      else if 2 ≤ r.tally ∨ (r.tally = 1 ∧ inProgress = true) then .multiple
      else if r.tally = 0 ∧ inProgress = true then .incomplete
      else if r.tally = 0 then .missed
      else .matched x

/-! ### Strobes and triggers -/

/-- A leading edge: on a DISABLED point it moves the line alone; outside NO_PULSE it is ignored; without an open window it is
stray; while a contributing axis is in hold it is discarded; otherwise its position is latched, and an EDGE-mode pulse of minimum
width 0 or 1 period is complete at once (R52, R53, R55, R56, R57, R60). Nothing else of the part changes. Wm is the width in periods of
12.5 ns, rounded, and a pulse is active high in EDGE_RISE and CENTRE_HIGH and low in the other modes (R52). The levels that the line then
has are the model's (log 5). -/
def Obligations.LeadingEdgeIsStrayHeldOrLatched : Prop :=
  (∀ c : PointConfig, c.minPeriods = (roundDiv (2 * (c.width : Int)) 25).toNat) ∧
  (StrobeMode.edgeRise.activeLevel = true ∧ StrobeMode.edgeFall.activeLevel = false ∧
   StrobeMode.centreHigh.activeLevel = true ∧ StrobeMode.centreLow.activeLevel = false) ∧
  ∀ (p : Point) (s : State),
    let m := s.point p
    let u : MeasuringPoint := { m with stb := m.config.mode.activeLevel, stbKept := m.config.mode.activeLevel }
    let x := m.latch s.channels
    let after (n : MeasuringPoint) : Prop := exec (.strobeLeadingEdge p) s = .next (s.setPoint p n)
    (m.state = .disabled → after { m with stb := m.config.mode.activeLevel }) ∧
    (m.state ≠ .disabled → m.tracker ≠ .noPulse → after u) ∧
    (m.state ≠ .disabled → m.tracker = .noPulse → m.passOpen = false →
      after { u with tracker := .settling, counters := { m.counters with stray := min 65535 (m.counters.stray + 1) } }) ∧
    (∀ d dir r, m.state ≠ .disabled → m.tracker = .noPulse → m.cursor = .opened d dir r →
      ((∃ a, m.config.coeffs.get a ≠ 0 ∧ (s.channels.get a).hold ≠ 0) →
        after
          { u with
            tracker := .settling
            counters := { m.counters with heldStrobe := min 65535 (m.counters.heldStrobe + 1) } }) ∧
      ((∀ a, m.config.coeffs.get a ≠ 0 → (s.channels.get a).hold = 0) →
        ((m.config.mode = .edgeRise ∨ m.config.mode = .edgeFall) → m.config.minPeriods ≤ 1 →
          after { u with tracker := .settling, cursor := .opened d dir (withStrobe r x) }) ∧
        ((m.config.mode = .centreHigh ∨ m.config.mode = .centreLow ∨ 2 ≤ m.config.minPeriods) →
          after { u with tracker := .qualifying x 1 })))

/-- A trailing edge: ignored in NO_PULSE and on a DISABLED point but for the line; in SETTLING it returns the tracker to NO_PULSE;
in QUALIFYING below Wm periods it is a glitch; a CENTRE-mode pulse that was wide enough is discarded while a contributing axis is in
hold and otherwise complete with the mean of both latches (R53, R58, R59, R60). `active` is the number of periods at which the pulse was
sampled active (log 4); that an EDGE-mode pulse whose completion was not given before its trailing edge completes there is the model's
choice (log 13). The completion of an EDGE-mode pulse adds the strobe with the position latched at its active edge and puts the tracker in
SETTLING (R57, R60); the end of a trigger pulse returns TRGn low (R114). Nothing else of the part changes. That a completion completes
the pulse whatever periods it was sampled active, and that the end ends the pulse whatever periods of it are left, is the model's choice
(log 6), and the levels of the line are the model's (log 5). -/
def Obligations.PulsesEndCompleteAndTrigger : Prop :=
  (∀ (p : Point) (active : Nat) (s : State),
     let m := s.point p
     let u : MeasuringPoint := { m with stb := !m.config.mode.activeLevel, stbKept := !m.config.mode.activeLevel }
     let after (n : MeasuringPoint) : Prop := exec (.strobeTrailingEdge p active) s = .next (s.setPoint p n)
     (m.state = .disabled → after { m with stb := !m.config.mode.activeLevel }) ∧
     (m.state ≠ .disabled → m.tracker = .noPulse → after u) ∧
     (m.state ≠ .disabled → m.tracker = .settling → after { u with tracker := .noPulse }) ∧
     (∀ xl n, m.state ≠ .disabled → m.tracker = .qualifying xl n → active < m.config.minPeriods →
       after { u with tracker := .noPulse, counters := { m.counters with glitch := min 65535 (m.counters.glitch + 1) } }) ∧
     (∀ xl n d dir r, m.state ≠ .disabled → m.tracker = .qualifying xl n → m.config.minPeriods ≤ active →
       (m.config.mode = .centreHigh ∨ m.config.mode = .centreLow) → m.cursor = .opened d dir r →
       ((∃ a, m.config.coeffs.get a ≠ 0 ∧ (s.channels.get a).hold ≠ 0) →
         after
           { u with
             tracker := .noPulse
             counters := { m.counters with heldStrobe := min 65535 (m.counters.heldStrobe + 1) } }) ∧
       ((∀ a, m.config.coeffs.get a ≠ 0 → (s.channels.get a).hold = 0) →
         after
           { u with
             tracker := .noPulse
             cursor := .opened d dir (withStrobe r (roundDiv (xl + m.latch s.channels) 2)) })) ∧
     (∀ xl n d dir r, m.state ≠ .disabled → m.tracker = .qualifying xl n → m.config.minPeriods ≤ active →
       (m.config.mode = .edgeRise ∨ m.config.mode = .edgeFall) → m.cursor = .opened d dir r →
       after { u with tracker := .noPulse, cursor := .opened d dir (withStrobe r xl) })) ∧
  (∀ (p : Point) (s : State),
     (∀ x n d dir r, (s.point p).tracker = .qualifying x n →
       ((s.point p).config.mode = .edgeRise ∨ (s.point p).config.mode = .edgeFall) →
       (s.point p).cursor = .opened d dir r →
         exec (.strobeCompletion p) s = .next
           (s.setPoint p { s.point p with tracker := .settling, cursor := .opened d dir (withStrobe r x) })) ∧
     exec (.triggerPulseEnd p) s = .next (s.setPoint p { s.point p with trg := false, trgLeft := 0 }))


/-- A latch combines the delay-corrected axes; with τ = 0 it gives X as the axes stand; and the correction lies within ±30,720
counts (R54). -/
def Obligations.LatchIsDelayCorrected : Prop :=
  (∀ (m : MeasuringPoint) (chs : Axes Channel),
    let tau := roundDiv (2 * (m.config.tau : Int)) 25
    m.latch chs = saturate (roundDiv (sumAxes fun a =>
      m.config.coeffs.get a *
        saturate (roundDiv (((chs.get a).count - roundDiv ((chs.get a).history.sum * tau) 64) * (chs.get a).kc)
          4294967296)) 1048576)) ∧
  (∀ (m : MeasuringPoint) (chs : Axes Channel), m.config.tau = 0 → m.latch chs = saturate (rawX m.config.coeffs chs)) ∧
  ∀ (c : Channel) (tau : Nat), tau ≤ 4000 → c.history.length ≤ 16 → (∀ d ∈ c.history, -384 ≤ d ∧ d ≤ 384) →
    |c.count - delayedCount c (clkPeriods tau)| ≤ 30720

/-! ### The compensation unit -/

/-- A commit makes the pending set active for all six axes together, recomputes every Kc, marks open passes split, raises COMMITTED
and, for a panic commit, PANIC_COMMIT, and changes nothing else: no count, history, state or hold counter, no age and no stale flag
(R36, R38, R39). Without a pending set a commit changes nothing (R36). -/
def Obligations.CommitMakesThePendingSetActive : Prop :=
  (∀ (s : State) (kind : CommitKind), s.cu.pendingSet = none → s.commit kind = s) ∧
  ∀ (s : State) (ps : MediumSet) (kind : CommitKind), s.cu.pendingSet = some ps →
    let t := s.commit kind
    (∀ a, t.channels.get a =
      { s.channels.get a with
        kc := (s.channels.get a).q - roundDiv ((s.channels.get a).q * ps.w.get a) 10000000000 }) ∧
    t.cu =
      { s.cu with
        activeW := ps.w, activeGeneration := ps.generation, pendingSet := none, debt := 0, lastCommit := kind } ∧
    (∀ p, (s.point p).passOpen = false → t.point p = s.point p) ∧
    (∀ p d dir r, (s.point p).cursor = .opened d dir r →
      t.point p = { s.point p with cursor := .opened d dir { r with split := true } }) ∧
    (∀ k, t.notices.flags.get k = true ↔
      s.notices.flags.get k = true ∨ k = .committed ∨ (k = .panicCommit ∧ kind = .panic)) ∧
    t.notices.routes = s.notices.routes ∧ t.sampled = s.sampled ∧ t.lostNow = s.lostNow ∧
    t.refok = s.refok ∧ t.table = s.table ∧ t.port = s.port ∧ t.pointer = s.pointer ∧ t.req = s.req ∧ t.pending = s.pending

/-- What an examination decides, with the meaning of quiet and of guard-clear (R163, R164, R168). That X is the last update's between a
commit and the next one is the model's choice (log 25). -/
def Obligations.ExaminationDecidesTheCommit : Prop :=
  (∀ (m : MeasuringPoint) (g : Nat),
    (m.quiet = true ↔ ¬∃ d dir r, m.cursor = .opened d dir r) ∧
    (m.guardClear g = true ↔ m.quiet = true ∧
      (m.state ≠ .scanning ∨ m.cursor = .atEnd ∨
        (∃ d tr, m.cursor = .armed d .forward tr ∧ (g : Int) < d.lower - m.x) ∨
        ∃ d tr, m.cursor = .armed d .reverse tr ∧ (g : Int) < m.x - d.upper))) ∧
  ∀ s : State,
    let quiet := (s.point .mp0).quiet = true ∧ (s.point .mp1).quiet = true
    let clear := (s.point .mp0).guardClear s.cu.guard = true ∧ (s.point .mp1).guardClear s.cu.guard = true
    (s.cu.commitHold = true → s.examine = s) ∧
    (s.cu.commitHold = false → s.cu.hpMark ≤ s.cu.debt → quiet → s.examine = s.commit .hp) ∧
    (s.cu.commitHold = false → ¬(s.cu.hpMark ≤ s.cu.debt ∧ quiet) → clear → s.examine = s.commit .opportunistic) ∧
    (s.cu.commitHold = false → ¬(s.cu.hpMark ≤ s.cu.debt ∧ quiet) → ¬clear → s.examine = s)

/-- With the timer enabled, a tick that finds a count above 0 reduces it, and one that finds it at 0 is an expiry; with the enable
clear a tick changes nothing (R155). An expiry reloads the count, raises the age and tests the stale flag, raises the debt of a
pending set, takes a panic commit at the panic mark, and otherwise examines (R158, R159, R167). That a tick with the count at 0 is
itself the expiry is deduced (log 7), and that both act wherever the block's count of periods stands, and leave it, is the model's
choice (log 28). -/
def Obligations.TickReducesTheCountOrExpires : Prop :=
  (∀ s : State,
     (s.cu.timerEnable = true → 0 < s.cu.timerCount →
       exec .millisecondTick s = .next { s with cu := { s.cu with timerCount := s.cu.timerCount - 1 } }) ∧
     (s.cu.timerEnable = true → s.cu.timerCount = 0 → exec .millisecondTick s = exec .expiry s) ∧
     (s.cu.timerEnable = false → exec .millisecondTick s = .next s)) ∧
  (∀ s : State, s.cu.timerEnable = true → s.cu.timerCount = 0 →
     let age := min 255 (s.cu.age + 1)
     let goesStale := s.cu.staleLimit ≤ age ∧ s.cu.stale = false
     let debt := if s.cu.pendingSet.isSome then s.cu.debt + 1 else s.cu.debt
     let cu := { s.cu with timerCount := s.cu.timerPeriod, age := age, debt := debt }
     let act (u : State) : State := if debt = s.cu.panicMark then u.commit .panic else u.examine
     (goesStale → exec .expiry s = .next (act { s.raise .mediumStale with cu := { cu with stale := true } })) ∧
     (¬goesStale → exec .expiry s = .next (act { s with cu := cu })))


/-- An accepted SUPPLY MEDIUM: named axes take the given W clamped, the others keep the pending W, or the active W when there was
no pending set; the generation is the given one, the debt stays, the age is 0 and the stale flag clear, and the CU then examines;
CLAMPED when a named W was out of range (R31 to R34). -/
def Obligations.SupplyMediumCreatesOrMerges : Prop :=
  ∀ (s : State) (generation : BitVec 16) (mask : Byte) (w : Axes (BitVec 32)), s.TakesRequests → mask.toNat < 64 →
    let named := fun a : Axis => mask.getLsbD a.val
    let clamped := fun a : Axis => max (-20000000) (min 20000000 (w.get a).toInt)
    let base := match s.cu.pendingSet with
      | none => s.cu.activeW
      | some ps => ps.w
    let supplied : MediumSet :=
      { w := .ofFn fun a => if named a then clamped a else base.get a, generation := generation.toNat }
    let u := { s with cu := { s.cu with pendingSet := some supplied, age := 0, stale := false } }
    ((∀ a, named a = true → clamped a = (w.get a).toInt) →
      exec (.supplyMedium generation mask w) s = .next (u.examine.answered 27 { status := .ok, data := [] })) ∧
    ((∃ a, named a = true ∧ clamped a ≠ (w.get a).toInt) →
      exec (.supplyMedium generation mask w) s = .next (u.examine.answered 27 { status := .clamped, data := [] }))

/-- An accepted SET COMMIT POLICY writes the five settings, clamped, the panic mark against the HP mark as clamped; a debt at or
above the new panic mark is committed at once; an age at or above the new stale limit sets the stale flag (R161, R162). FORCE COMMIT
raises the debt of a pending set to the HP mark and changes nothing without one (R169); SET TIMER writes the selected fields and keeps
the others (R156). The last two answer OK with no data. -/
def Obligations.SchedulingRequestsWriteTheirSettings : Prop :=
  (∀ (s : State) (hp panic stale : Byte) (guard : BitVec 32) (hold : Byte), s.TakesRequests →
     let hp' := max 1 (min 14 hp.toNat)
     let panic' := max (hp' + 1) (max 2 (min 15 panic.toNat))
     let stale' := max 1 stale.toNat
     let guard' := min 100000000 guard.toNat
     let status : Status :=
       if hp' = hp.toNat ∧ panic' = panic.toNat ∧ stale' = stale.toNat ∧ guard' = guard.toNat then .ok else .clamped
     let u := { s with cu := { s.cu with hpMark := hp', panicMark := panic', staleLimit := stale', guard := guard',
                                         commitHold := decide (hold.toNat ≠ 0) } }
     let v := if s.cu.pendingSet.isSome = true ∧ panic' ≤ s.cu.debt then u.commit .panic else u
     (stale' ≤ s.cu.age → s.cu.stale = false →
       exec (.setCommitPolicy hp panic stale guard hold) s = .next
         (({ v with cu := { v.cu with stale := true } }.raise .mediumStale).answered 8 { status := status, data := [] })) ∧
     (¬(stale' ≤ s.cu.age ∧ s.cu.stale = false) →
       exec (.setCommitPolicy hp panic stale guard hold) s = .next (v.answered 8 { status := status, data := [] }))) ∧
  (∀ s : State, s.TakesRequests →
     (∀ ps, s.cu.pendingSet = some ps → exec .forceCommit s = .next
       ({ s with cu := { s.cu with debt := max s.cu.debt s.cu.hpMark } }.answered 0 { status := .ok, data := [] })) ∧
     (s.cu.pendingSet = none → exec .forceCommit s = .next (s.answered 0 { status := .ok, data := [] })) ∧
     ∀ (select : Byte) (period count : BitVec 16) (enable : Byte),
       exec (.setTimer select period count enable) s = .next
         ({ s with
             cu :=
               { s.cu with
                 timerPeriod := if select.getLsbD 0 then period.toNat else s.cu.timerPeriod
                 timerCount := if select.getLsbD 1 then count.toNat else s.cu.timerCount
                 timerEnable := if select.getLsbD 2 then decide (enable.toNat ≠ 0) else s.cu.timerEnable } }.answered 6
           { status := .ok, data := [] }))

/-! ### Requests answered when they are taken -/

/-- An accepted CONFIGURE AXIS writes the settings, D = 0 as 1, recomputes Q and Kc when λ or f differs or the axis is fitted, and
fits, unfits or keeps the channel; the other axes and the rest of the part stay (R17 to R20, R26, R28). -/
def Obligations.ConfigureAxisWritesFitsAndUnfits : Prop :=
  ∀ (s : State) (a : Axis) (axis fitted : Byte) (wavelength : BitVec 32) (fold invert drop : Byte),
    s.TakesRequests → axis.toNat = a.val → 400000000 ≤ wavelength.toNat → wavelength.toNat ≤ 1100000000 →
    (fold.toNat = 1 ∨ fold.toNat = 2) →
    (∀ p, (s.point p).state = .scanning ∨ (s.point p).state = .halted → (s.point p).config.coeffs.get a = 0) →
      let c := s.channels.get a
      let q := roundDiv ((wavelength.toNat : Int) * 2097152) (1000 * (fold.toNat : Int))
      let kc := q - roundDiv (q * s.cu.activeW.get a) 10000000000
      let written :=
        { c with fitted := decide (fitted.toNat ≠ 0), wavelength := wavelength.toNat, fold := fold.toNat,
                 invert := decide (invert.toNat ≠ 0), dropLimit := max 1 drop.toNat }
      let scaled :=
        if c.wavelength = wavelength.toNat ∧ c.fold = fold.toNat then written else { written with q := q, kc := kc }
      let cleared (u : Channel) (st : ChannelState) : Channel :=
        { u with state := st, count := 0, lastPhase := none, hold := 0, history := [], lostCause := .none }
      let after (n : Channel) : Prop :=
        exec (.configureAxis axis fitted wavelength fold invert drop) s = .next
          ({ s with channels := s.channels.set a n }.answered 9
            { status := if drop.toNat = 0 then .clamped else .ok, data := [] })
      (fitted.toNat ≠ 0 → c.state = .off →
        after { cleared written .relative with dropouts := 0, q := q, kc := kc }) ∧
      (fitted.toNat ≠ 0 → c.state ≠ .off → after scaled) ∧
      (fitted.toNat = 0 → c.state ≠ .off → after (cleared scaled .off)) ∧
      (fitted.toNat = 0 → c.state = .off → after scaled)

/-- An accepted PRESET AXIS sets the count, puts the channel in TRACKING with lost cause NONE, and changes nothing else; it is
accepted by the checks of R22 when no phase sample taken at the same moment has put the axis in LOST (R22, R23), the length of that
moment being the model's choice (log 30); READ AXES answers the six readings and changes nothing (R24). That it reads the axes as
they stand, also after a commit or a request since the last sample, is the model's choice (log 26). -/
def Obligations.PresetAxisAndReadAxes : Prop :=
  ∀ s : State, s.TakesRequests →
    (∀ (a : Axis) (axis : Byte) (value : BitVec 48), axis.toNat = a.val →
      -549755813887 ≤ value.toInt → value.toInt ≤ 549755813887 →
      (s.channels.get a).state ≠ .off → (s.channels.get a).sigok = true → s.refok = true →
      (s.channels.get a).lastPhase ≠ none → s.lostNow.get a = false →
      (∀ p, (s.point p).state = .scanning ∨ (s.point p).state = .halted → (s.point p).config.coeffs.get a = 0) →
        exec (.presetAxis axis value) s = .next
          ({ s with
              channels := s.channels.set a
                { s.channels.get a with count := value.toInt, state := .tracking, lostCause := .none } }.answered 7
            { status := .ok, data := [] })) ∧
    exec .readAxes s = .next (s.answered 0
      { status := .ok
        data := (s.channels.get 0).reading s.refok ++ (s.channels.get 1).reading s.refok ++
          (s.channels.get 2).reading s.refok ++ (s.channels.get 3).reading s.refok ++
          (s.channels.get 4).reading s.refok ++ (s.channels.get 5).reading s.refok })

/-- The layouts of the records: an axis reading (R205) of 25 bytes, an entry record (R206) of 104, a medium record (R207) of 55, and the
status record (R208) of 156; the six axis readings stand in order (R204). Codes are those of R201, and what is absent or does not apply
is sent as 0. -/
def Obligations.RecordsAreLaidOut : Prop :=
  (∀ (c : Channel) (refok : Bool), c.hold ≤ 255 → c.dropouts ≤ 255 →
     let bs := c.reading refok
     bs.length = 25 ∧
     (u8 bs 0).toNat = (match c.state with | .off => 0 | .relative => 1 | .tracking => 2 | .lost => 3) ∧
     (u8 bs 1).toNat = (match c.lostCause with | .none => 0 | .rate => 1 | .range => 2 | .dropout => 3) ∧
     (u8 bs 2).toNat = c.hold ∧ (u8 bs 3).toNat = c.dropouts ∧
     (u8 bs 4).getLsbD 0 = c.sigok ∧ (u8 bs 4).getLsbD 1 = refok ∧ (u8 bs 4).getLsbD 2 = c.lastPhase.isSome ∧
     (u8 bs 4).toNat < 8 ∧
     u48 bs 5 = BitVec.ofInt 48 c.count ∧ u16 bs 11 = BitVec.ofInt 16 c.history.sum ∧
     u48 bs 13 = BitVec.ofInt 48 c.position ∧ u48 bs 19 = BitVec.ofInt 48 c.kc) ∧
  (∀ s : State, s.axesReading.length = 150 ∧
     ∀ a : Axis, (s.axesReading.drop (25 * a.val)).take 25 = (s.channels.get a).reading s.refok) ∧
  (∀ (slot revision state : Nat) (e : Entry), ResultsOk e.results →
     let bs := entryRecord slot revision e state
     let res := e.results
     let block (d : DirStats) (off : Nat) : Prop :=
       u16 bs off = BitVec.ofNat 16 d.n ∧ fieldAt 64 8 bs (off + 2) = BitVec.ofInt 64 d.sum ∧
         (d.n = 0 → u32 bs (off + 10) = 0 ∧ u32 bs (off + 14) = 0 ∧ u32 bs (off + 18) = 0 ∧ u32 bs (off + 22) = 0) ∧
         ∀ x, d.extremes = some x →
           u32 bs (off + 10) = BitVec.ofInt 32 x.min ∧ u32 bs (off + 14) = BitVec.ofInt 32 x.max ∧
             u32 bs (off + 18) = BitVec.ofInt 32 (roundDiv d.sum d.n) ∧ u32 bs (off + 22) = BitVec.ofInt 32 (x.max - x.min)
     bs.length = 104 ∧ u16 bs 0 = BitVec.ofNat 16 slot ∧ u16 bs 2 = BitVec.ofNat 16 revision ∧
     u8 bs 4 = (match e.point with | .mp0 => 0 | .mp1 => 1) ∧ u16 bs 5 = BitVec.ofNat 16 e.key ∧
     u48 bs 7 = BitVec.ofInt 48 e.nominal ∧ u32 bs 13 = BitVec.ofNat 32 e.halfWidth ∧
     (u8 bs 17).getLsbD 0 = e.hold ∧ (u8 bs 17).getLsbD 1 = e.trigger ∧ (u8 bs 17).getLsbD 2 = res.staleSeen ∧
     (u8 bs 17).getLsbD 3 = res.saturated ∧ (u8 bs 17).toNat < 16 ∧ u8 bs 18 = BitVec.ofNat 8 state ∧
     ((u8 bs 19).getLsbD 0 = true ↔ 0 < res.forward.n) ∧ ((u8 bs 19).getLsbD 1 = true ↔ 0 < res.reverse.n) ∧
     ((u8 bs 19).getLsbD 2 = true ↔ 0 < res.forward.n ∧ 0 < res.reverse.n) ∧
     ((u8 bs 19).getLsbD 3 = true ↔ ∃ v dir, res.lastPass = some { outcome := .matched v, direction := dir }) ∧
     (u8 bs 19).toNat < 16 ∧
     (res.lastPass = none → u8 bs 20 = 0 ∧ u8 bs 21 = 0 ∧ u32 bs 22 = 0) ∧
     (∀ o dir, res.lastPass = some { outcome := o, direction := dir } →
       u8 bs 20 =
           (match o with
             | .matched _ => 1 | .missed => 2 | .jumped => 3 | .returned => 4 | .multiple => 5 | .incomplete => 6
             | .split => 7 | .axisLost => 8 | .aborted => 9) ∧
         u8 bs 21 = (match dir with | .forward => 1 | .reverse => 2) ∧
         u32 bs 22 = BitVec.ofInt 32 (match o with | .matched v => v | _ => 0)) ∧
     u8 bs 26 = BitVec.ofNat 8 res.missCount ∧ u8 bs 27 = BitVec.ofNat 8 res.rejectCount ∧
     u16 bs 28 = BitVec.ofNat 16 res.passTotal ∧ block res.forward 30 ∧ block res.reverse 56 ∧
     u48 bs 82 =
       (if 0 < res.forward.n ∧ 0 < res.reverse.n then
         BitVec.ofInt 48 (roundDiv res.forward.sum res.forward.n - roundDiv res.reverse.sum res.reverse.n)
       else 0) ∧
     fieldAt 64 8 bs 88 = BitVec.ofInt 64 (e.nominal - e.halfWidth) ∧
     fieldAt 64 8 bs 96 = BitVec.ofInt 64 (e.nominal + e.halfWidth)) ∧
  (∀ c : Cu,
     let bs := c.mediumRecord
     bs.length = 55 ∧ u16 bs 0 = BitVec.ofNat 16 c.activeGeneration ∧ (u8 bs 2).getLsbD 0 = c.pendingSet.isSome ∧
     (u8 bs 2).getLsbD 1 = c.stale ∧ (u8 bs 2).toNat < 4 ∧ u8 bs 5 = BitVec.ofNat 8 c.debt ∧
     u8 bs 6 = BitVec.ofNat 8 c.age ∧ (∀ a : Axis, u32 bs (7 + 4 * a.val) = BitVec.ofInt 32 (c.activeW.get a)) ∧
     (c.pendingSet = none → u16 bs 3 = 0 ∧ ∀ a : Axis, u32 bs (31 + 4 * a.val) = 0) ∧
     ∀ ps, c.pendingSet = some ps →
       u16 bs 3 = BitVec.ofNat 16 ps.generation ∧
         ∀ a : Axis, u32 bs (31 + 4 * a.val) = BitVec.ofInt 32 (ps.w.get a)) ∧
  (∀ (s : State) (p : Point),
     let m := s.point p
     let bs := (s.statusRecord.drop (match p with | .mp0 => 0 | .mp1 => 39)).take 39
     let direction (d : Option Travel) : Byte := match d with | none => 0 | some .forward => 1 | some .reverse => 2
     u8 bs 0 =
         (match m.state with | .disabled => 0 | .idle => 1 | .scanning => 2 | .halted => 3 | .suspended => 4) ∧
     u8 bs 1 = (match m.cause with | .none => 0 | .axisLost => 1 | .range => 2) ∧ u8 bs 2 = direction m.direction ∧
     (u8 bs 4).getLsbD 0 = m.passOpen ∧ (u8 bs 4).getLsbD 1 = m.quiet ∧ (u8 bs 4).getLsbD 2 = m.guardClear s.cu.guard ∧
     ((u8 bs 4).getLsbD 3 = true ↔ ∃ d dir tp, m.cursor = .armed d dir (some tp)) ∧
     ((u8 bs 4).getLsbD 4 = true ↔ ∃ d dir tp, m.cursor = .armed d dir (some tp) ∧ tp.fired = true) ∧
     ((u8 bs 4).getLsbD 5 = true ↔ m.passOpen = true ∧ m.tracker.inProgress = true) ∧
     ((u8 bs 4).getLsbD 6 = true ↔ ∃ d dir r, m.cursor = .opened d dir r ∧ r.split = true) ∧ (u8 bs 4).toNat < 128 ∧
     u8 bs 5 = BitVec.ofNat 8 m.queue.length ∧ u48 bs 6 = BitVec.ofInt 48 m.x ∧ u32 bs 12 = BitVec.ofInt 32 m.vx ∧
     (m.cursor = .inactive → u8 bs 3 = 0) ∧ (m.cursor = .atEnd → u8 bs 3 = 1) ∧
     (m.cursor = .inactive ∨ m.cursor = .atEnd →
       u16 bs 16 = 0 ∧ u16 bs 18 = 0 ∧ u16 bs 20 = 0 ∧ u8 bs 22 = 0 ∧ u8 bs 23 = 0) ∧
     (∀ d dir tr, m.cursor = .armed d dir tr →
       u8 bs 3 = 2 ∧ u16 bs 16 = BitVec.ofNat 16 d.slot ∧ u16 bs 18 = BitVec.ofNat 16 d.key ∧
         u16 bs 20 = BitVec.ofNat 16 d.revision ∧ u8 bs 22 = direction (some dir) ∧ u8 bs 23 = 0) ∧
     (∀ d dir r, m.cursor = .opened d dir r →
       u8 bs 3 = 3 ∧ u16 bs 16 = BitVec.ofNat 16 d.slot ∧ u16 bs 18 = BitVec.ofNat 16 d.key ∧
         u16 bs 20 = BitVec.ofNat 16 d.revision ∧ u8 bs 22 = 0 ∧ u8 bs 23 = BitVec.ofNat 8 r.tally) ∧
     u16 bs 24 = BitVec.ofNat 16 m.scan.first ∧ u16 bs 26 = BitVec.ofNat 16 m.scan.last ∧
     u8 bs 28 = BitVec.ofNat 8 m.scan.stride ∧ u16 bs 29 = BitVec.ofNat 16 m.counters.stray ∧
     u16 bs 31 = BitVec.ofNat 16 m.counters.glitch ∧ u16 bs 33 = BitVec.ofNat 16 m.counters.heldStrobe ∧
     u16 bs 35 = BitVec.ofNat 16 m.counters.overrunLost ∧ u16 bs 37 = BitVec.ofNat 16 m.counters.orphaned) ∧
  ∀ s : State,
    let bs := s.statusRecord
    bs.length = 156 ∧ u16 bs 78 = BitVec.ofNat 16 (s.table.liveCount .mp0) ∧
    u16 bs 80 = BitVec.ofNat 16 (s.table.liveCount .mp1) ∧ u16 bs 82 = BitVec.ofNat 16 s.table.freeCount ∧
    (bs.drop 84).take 55 = s.cu.mediumRecord ∧ u16 bs 139 = BitVec.ofNat 16 s.cu.timerCount ∧
    u16 bs 141 = BitVec.ofNat 16 s.cu.timerPeriod ∧ (u8 bs 143).getLsbD 0 = s.cu.timerEnable ∧
    (u8 bs 143).getLsbD 1 = s.cu.commitHold ∧ (u8 bs 143).toNat < 4 ∧ u8 bs 144 = BitVec.ofNat 8 s.cu.hpMark ∧
    u8 bs 145 = BitVec.ofNat 8 s.cu.panicMark ∧ u8 bs 146 = BitVec.ofNat 8 s.cu.staleLimit ∧
    u32 bs 147 = BitVec.ofNat 32 s.cu.guard ∧
    u8 bs 151 = (match s.cu.lastCommit with | .none => 0 | .opportunistic => 1 | .hp => 2 | .panic => 3) ∧
    u16 bs 152 = BitVec.ofNat 16 s.req.discardedCount ∧ u16 bs 154 = BitVec.ofNat 16 s.req.malformedCount


/-- An accepted CONFIGURE POINT writes the clamped settings; enabled, the point is IDLE with X and Vx formed at once, the direction
NONE if it was DISABLED; otherwise it is DISABLED with direction NONE; the tracker is NO_PULSE; counters, queue and cause stay
(R45, R46, R52). X and Vx are formed from the axes as the most recent phase sample left them, whatever a commit or a request has changed
since (R46); that these carry the Kc of that sample is read from R37 and R46 (log 27). -/
def Obligations.ConfigurePointWritesAndEnables : Prop :=
  ∀ (s : State) (p : Point) (point enabled : Byte) (coeffs : Axes (BitVec 32)) (mode : Byte) (md : StrobeMode)
    (tau width hyst : BitVec 16) (lead : BitVec 32),
    s.TakesRequests → point.toNat = (if p = .mp0 then 0 else 1) →
    (mode.toNat = 0 ∧ md = .edgeRise ∨ mode.toNat = 1 ∧ md = .edgeFall ∨ mode.toNat = 2 ∧ md = .centreHigh ∨
      mode.toNat = 3 ∧ md = .centreLow) →
    (∀ a, -2097152 ≤ (coeffs.get a).toInt ∧ (coeffs.get a).toInt ≤ 2097152) →
    (enabled.toNat ≠ 0 → ∃ a, (coeffs.get a).toInt ≠ 0) →
    ((s.point p).state = .disabled ∨ (s.point p).state = .idle) →
    (∀ a, (coeffs.get a).toInt ≠ 0 → (s.channels.get a).state ≠ .off) →
      let m := s.point p
      let cfg : PointConfig :=
        { enabled := decide (enabled.toNat ≠ 0), coeffs := .ofFn fun a => (coeffs.get a).toInt, mode := md
          tau := min 4000 tau.toNat, width := min 3000 width.toNat, hyst := max 1 hyst.toNat
          lead := min 100000000 lead.toNat }
      let status : Status :=
        if cfg.tau = tau.toNat ∧ cfg.width = width.toNat ∧ cfg.hyst = hyst.toNat ∧ cfg.lead = lead.toNat then .ok
        else .clamped
      let x := saturate (roundDiv (sumAxes fun a => (coeffs.get a).toInt * (s.sampled.get a).position) 1048576)
      let vx := roundDiv (sumAxes fun a =>
        (coeffs.get a).toInt * (s.sampled.get a).history.sum * (s.sampled.get a).kc) 4503599627370496
      (enabled.toNat ≠ 0 →
        exec (.configurePoint point enabled coeffs mode tau width hyst lead) s = .next
          ((s.setPoint p
            { m with
              config := cfg, state := .idle, tracker := .noPulse, stbKept := m.stb, x := x, vx := vx
              direction := if m.state = .disabled then none else m.direction }).answered 37
            { status := status, data := [] })) ∧
      (enabled.toNat = 0 →
        exec (.configurePoint point enabled coeffs mode tau width hyst lead) s = .next
          ((s.setPoint p
            { m with config := cfg, state := .disabled, tracker := .noPulse, direction := none }).answered 37
            { status := status, data := [] }))

/-- An accepted START SCAN writes the range and the stride, puts the point in SCANNING with cause NONE, and the cursor seeks (R102,
R103); an accepted ACKNOWLEDGE HALT puts a HALTED point back in SCANNING, and the cursor seeks (R127). An accepted STOP SCAN closes an open
pass as ABORTED, sets the cursor INACTIVE and puts the point in IDLE; the cause, the rest of the point and the part stay, and no event but
the response's is raised (R104, R120, R125). -/
def Obligations.ScansStartStopAndResume : Prop :=
  (∀ (s : State) (p : Point) (point : Byte), s.TakesRequests → point.toNat = (if p = .mp0 then 0 else 1) →
     (∀ (first last : BitVec 16) (stride : Byte), first.toNat ≤ last.toNat → (s.point p).state = .idle →
       (∀ a, (s.point p).config.coeffs.get a ≠ 0 → (s.channels.get a).state = .tracking) →
         exec (.startScan point first last stride) s = .next
           ((s.takePoint p
             ({ s.point p with
                 state := .scanning, cause := .none
                 scan := { first := first.toNat, last := last.toNat, stride := max 1 stride.toNat } }.seek
               (s.index p))).answered 6
             { status := if stride.toNat = 0 then .clamped else .ok, data := [] })) ∧
     ((s.point p).state = .halted →
       exec (.acknowledgeHalt point) s = .next
         ((s.takePoint p ({ s.point p with state := .scanning }.seek (s.index p))).answered 1
           { status := .ok, data := [] }))) ∧
  (∀ (s : State) (p : Point) (point : Byte), s.TakesRequests → point.toNat = (if p = .mp0 then 0 else 1) →
     ((s.point p).state = .scanning ∨ (s.point p).state = .halted ∨ (s.point p).state = .suspended) →
       ∃ n, exec (.stopScan point) s = .next ((s.setPoint p n).answered 1 { status := .ok, data := [] }) ∧
         n.state = .idle ∧ n.cause = (s.point p).cause ∧ ClosedStopped (s.point p) n s.cu.stale .aborted)


/-- READ STATUS answers the status record as it stands and, with clear option 1, then zeroes the counters (R67, R197). -/
def Obligations.ReadStatusReportsThenClears : Prop :=
  ∀ (s : State) (clear : Byte), s.TakesRequests →
    (clear.toNat = 0 → exec (.readStatus clear) s = .next (s.answered 1 { status := .ok, data := s.statusRecord })) ∧
    (clear.toNat = 1 → exec (.readStatus clear) s = .next
      ({ s with
          points :=
            { mp0 := { s.points.mp0 with counters := ⟨0, 0, 0, 0, 0⟩ }
              mp1 := { s.points.mp1 with counters := ⟨0, 0, 0, 0, 0⟩ } }
          req := { s.req with discardedCount := 0, malformedCount := 0 } }.answered 1
        { status := .ok, data := s.statusRecord }))

/-- An accepted TAKE NOTICES answers the pending set as it stood and the routes, and clears the kinds its mask names (R177); SET
ROUTES writes the ten routes and leaves the pending set (R179); a notice line is asserted exactly while some pending kind is routed
to it (R175). The ten kinds have the bits 0 to 9 of the pending set, and their routes twice these bits, the four bits above them
sent as 0 (R201). That a request and the raise of its own RESPONSE_READY are one step, with no fall of a line between them, is the
model's choice (log 31). -/
def Obligations.NoticesAreTakenAndRouted : Prop :=
  (∀ s : State, s.TakesRequests →
     (∀ mask : BitVec 16, mask.toNat < 1024 →
       ∃ (t : State) (data : List Byte), exec (.takeNotices mask) s = .next (t.answered 2 { status := .ok, data := data }) ∧
         t = { s with notices := { t.notices with routes := s.notices.routes } } ∧
         (∀ k, t.notices.flags.get k = (s.notices.flags.get k && !mask.getLsbD k.bit)) ∧
         data.length = 5 ∧ (∀ k, (u16 data 0).getLsbD k.bit = s.notices.flags.get k) ∧ (u16 data 0).toNat < 1024 ∧
         (∀ k, ((u24 data 2).toNat / 2 ^ (2 * k.bit)) % 4 =
           match s.notices.routes.get k with | .nowhere => 0 | .a => 1 | .b => 2 | .ab => 3) ∧
         (u24 data 2).toNat < 1048576) ∧
     ∀ routes : BitVec 24,
       ∃ t : State, exec (.setRoutes routes) s = .next (t.answered 3 { status := .ok, data := [] }) ∧
         t = { s with notices := { t.notices with flags := s.notices.flags } } ∧
         ∀ k, t.notices.routes.get k =
           match (routes.toNat / 2 ^ (2 * k.bit)) % 4 with | 0 => .nowhere | 1 => .a | 2 => .b | _ => .ab) ∧
  (∀ n : Notices,
     (n.noteA = true ↔ ∃ k, n.flags.get k = true ∧ (n.routes.get k = .a ∨ n.routes.get k = .ab)) ∧
     (n.noteB = true ↔ ∃ k, n.flags.get k = true ∧ (n.routes.get k = .b ∨ n.routes.get k = .ab))) ∧
  (EventKind.axisLost.bit = 0 ∧ EventKind.refLost.bit = 1 ∧ EventKind.committed.bit = 2 ∧ EventKind.panicCommit.bit = 3 ∧
   EventKind.mediumStale.bit = 4 ∧ EventKind.entryMissed.bit = 5 ∧ EventKind.pointHalted.bit = 6 ∧
   EventKind.pointSuspended.bit = 7 ∧ EventKind.scanEnd.bit = 8 ∧ EventKind.responseReady.bit = 9)


/-! ### Table requests taken -/

/-- A table request whose parameters pass makes the link EXECUTING and asks for its first access, its half-width clamped (R82,
R85, R87, R89, R91, R94, R95, R189, R198). -/
def Obligations.TableRequestsAskForTheirAccess : Prop :=
  ∀ (s : State) (p : Point) (point : Byte), s.TakesRequests → point.toNat = (if p = .mp0 then 0 else 1) →
    (∀ (key : BitVec 16) (nominal : BitVec 48) (halfWidth : BitVec 32) (hold trigger : Byte),
      -140737488355327 ≤ nominal.toInt → nominal.toInt ≤ 140737488355327 →
        let h := max 1000 (min 1000000000 halfWidth.toNat)
        exec (.loadEntry point key nominal halfWidth hold trigger) s = .next (s.asking 15
          (.load p key.toNat nominal.toInt h (decide (hold.toNat ≠ 0)) (decide (trigger.toNat ≠ 0))
            (decide (h ≠ halfWidth.toNat)))) ∧
        exec (.amendEntry point key nominal halfWidth hold trigger) s = .next (s.asking 15
          (.amend p key.toNat nominal.toInt h (decide (hold.toNat ≠ 0)) (decide (trigger.toNat ≠ 0))
            (decide (h ≠ halfWidth.toNat))))) ∧
    (∀ key : BitVec 16, exec (.clearEntry point key) s = .next (s.asking 3 (.clear p key.toNat)) ∧
      exec (.lookupEntry point key) s = .next (s.asking 3 (.lookup p key.toNat)) ∧
      exec (.sweepEntries point key) s = .next (s.asking 3 (.sweep p key.toNat 0 []))) ∧
    (∀ first last : BitVec 16, first.toNat ≤ last.toNat →
      exec (.retireEntries point first last) s = .next (s.asking 5 (.retire p first.toNat last.toNat 0 0))) ∧
    exec .restart s = .next (s.asking 0 .restart)

/-! ### Refused and discarded requests -/

/-- The axis, medium and point requests that their checks refuse are answered with the status of the first failing check, and
change nothing else (R17, R22, R31, R45, R82, R190). PRESET AXIS is refused also for an axis that a phase sample of the same moment has put
in LOST (R23). How long that moment lasts is the model's choice (log 30). -/
def Obligations.RefusedAxisAndPointRequests : Prop :=
  ∀ s : State, s.TakesRequests →
    (∀ (axis fitted : Byte) (wavelength : BitVec 32) (fold invert drop : Byte),
      (5 < axis.toNat ∨ wavelength.toNat < 400000000 ∨ 1100000000 < wavelength.toNat ∨ fold.toNat = 0 ∨ 2 < fold.toNat →
        exec (.configureAxis axis fitted wavelength fold invert drop) s = .next (s.answered 9 ⟨.badParam, []⟩)) ∧
      ∀ a : Axis, axis.toNat = a.val → 400000000 ≤ wavelength.toNat → wavelength.toNat ≤ 1100000000 →
        (fold.toNat = 1 ∨ fold.toNat = 2) →
        (∃ p, ((s.point p).state = .scanning ∨ (s.point p).state = .halted) ∧ (s.point p).config.coeffs.get a ≠ 0) →
          exec (.configureAxis axis fitted wavelength fold invert drop) s = .next (s.answered 9 ⟨.pointState, []⟩)) ∧
    (∀ (axis : Byte) (value : BitVec 48),
      (5 < axis.toNat ∨ value.toInt < -549755813887 ∨ 549755813887 < value.toInt →
        exec (.presetAxis axis value) s = .next (s.answered 7 ⟨.badParam, []⟩)) ∧
      ∀ a : Axis, axis.toNat = a.val → -549755813887 ≤ value.toInt → value.toInt ≤ 549755813887 →
        ((s.channels.get a).state = .off ∨ (s.channels.get a).sigok = false ∨ s.refok = false ∨
            (s.channels.get a).lastPhase = none ∨ s.lostNow.get a = true →
          exec (.presetAxis axis value) s = .next (s.answered 7 ⟨.axisState, []⟩)) ∧
        ((s.channels.get a).state ≠ .off → (s.channels.get a).sigok = true → s.refok = true →
          (s.channels.get a).lastPhase ≠ none → s.lostNow.get a = false →
          (∃ p, ((s.point p).state = .scanning ∨ (s.point p).state = .halted) ∧ (s.point p).config.coeffs.get a ≠ 0) →
            exec (.presetAxis axis value) s = .next (s.answered 7 ⟨.pointState, []⟩))) ∧
    (∀ (generation : BitVec 16) (mask : Byte) (w : Axes (BitVec 32)), 64 ≤ mask.toNat →
      exec (.supplyMedium generation mask w) s = .next (s.answered 27 ⟨.badParam, []⟩)) ∧
    ∀ (point enabled : Byte) (coeffs : Axes (BitVec 32)) (mode : Byte) (tau width hyst : BitVec 16) (lead : BitVec 32),
      let bad := 1 < point.toNat ∨ 3 < mode.toNat ∨
        (∃ a, (coeffs.get a).toInt < -2097152 ∨ 2097152 < (coeffs.get a).toInt) ∨
        (enabled.toNat ≠ 0 ∧ ∀ a, (coeffs.get a).toInt = 0)
      (bad →
        exec (.configurePoint point enabled coeffs mode tau width hyst lead) s = .next
          (s.answered 37 ⟨.badParam, []⟩)) ∧
      ∀ p : Point, ¬bad → point.toNat = (if p = .mp0 then 0 else 1) →
        ((s.point p).state = .scanning ∨ (s.point p).state = .halted ∨ (s.point p).state = .suspended →
          exec (.configurePoint point enabled coeffs mode tau width hyst lead) s = .next
            (s.answered 37 ⟨.pointState, []⟩)) ∧
        ((s.point p).state = .disabled ∨ (s.point p).state = .idle →
          (∃ a, (coeffs.get a).toInt ≠ 0 ∧ (s.channels.get a).state = .off) →
            exec (.configurePoint point enabled coeffs mode tau width hyst lead) s = .next
              (s.answered 37 ⟨.axisState, []⟩))

/-- The scan, table, status and notice requests that their parameters or their point refuse are answered with the status of the
first failing check, and change nothing else (R82, R85, R87, R89, R91, R94, R95, R102, R104, R127, R177, R190, R197). -/
def Obligations.RefusedScanTableAndPortRequests : Prop :=
  ∀ s : State, s.TakesRequests →
    (∀ (point : Byte) (first last : BitVec 16) (stride : Byte),
      (1 < point.toNat ∨ last.toNat < first.toNat →
        exec (.startScan point first last stride) s = .next (s.answered 6 ⟨.badParam, []⟩) ∧
        exec (.retireEntries point first last) s = .next (s.answered 5 ⟨.badParam, []⟩)) ∧
      ∀ p : Point, point.toNat = (if p = .mp0 then 0 else 1) → first.toNat ≤ last.toNat →
        ((s.point p).state ≠ .idle →
          exec (.startScan point first last stride) s = .next (s.answered 6 ⟨.pointState, []⟩)) ∧
        ((s.point p).state = .idle →
          (∃ a, (s.point p).config.coeffs.get a ≠ 0 ∧ (s.channels.get a).state ≠ .tracking) →
            exec (.startScan point first last stride) s = .next (s.answered 6 ⟨.axisState, []⟩))) ∧
    (∀ point : Byte,
      (1 < point.toNat → exec (.stopScan point) s = .next (s.answered 1 ⟨.badParam, []⟩) ∧
        exec (.acknowledgeHalt point) s = .next (s.answered 1 ⟨.badParam, []⟩)) ∧
      ∀ p : Point, point.toNat = (if p = .mp0 then 0 else 1) →
        ((s.point p).state = .disabled ∨ (s.point p).state = .idle →
          exec (.stopScan point) s = .next (s.answered 1 ⟨.pointState, []⟩)) ∧
        ((s.point p).state ≠ .halted →
          exec (.acknowledgeHalt point) s = .next (s.answered 1 ⟨.pointState, []⟩))) ∧
    (∀ (point : Byte) (key : BitVec 16) (nominal : BitVec 48) (halfWidth : BitVec 32) (hold trigger : Byte),
      (1 < point.toNat ∨ nominal.toInt < -140737488355327 ∨ 140737488355327 < nominal.toInt →
        exec (.loadEntry point key nominal halfWidth hold trigger) s = .next (s.answered 15 ⟨.badParam, []⟩) ∧
        exec (.amendEntry point key nominal halfWidth hold trigger) s = .next (s.answered 15 ⟨.badParam, []⟩)) ∧
      (1 < point.toNat → exec (.clearEntry point key) s = .next (s.answered 3 ⟨.badParam, []⟩) ∧
        exec (.lookupEntry point key) s = .next (s.answered 3 ⟨.badParam, []⟩) ∧
        exec (.sweepEntries point key) s = .next (s.answered 3 ⟨.badParam, []⟩))) ∧
    (∀ clear : Byte, 1 < clear.toNat → exec (.readStatus clear) s = .next (s.answered 1 ⟨.badParam, []⟩)) ∧
    ∀ mask : BitVec 16, 1024 ≤ mask.toNat → exec (.takeNotices mask) s = .next (s.answered 2 ⟨.badParam, []⟩)

/-- A byte crosses the port most significant bit first and is complete at its eighth bit; bits of an incomplete one are ignored
(R184). Every request but FETCH that arrives at a busy link is discarded. A frame is malformed by an unknown code or a wrong L, then
short, and otherwise it is the request whose frame its first L + 2 bytes are; what follows them is ignored. A transaction that is
malformed, short, or whole at a busy link sets the DISCARDED flag and is counted, and nothing outside the port changes; one of fewer
than two bytes is a status read (R184 to R187). That a frame which would be taken, or is a FETCH, leaves the part as it is under
FRAME_DISCARDED is the model's choice (log 9). A transaction the port ignores ends with nothing judged (R199); what SDO did in it is
a free value (log 24). -/
def Obligations.DiscardedFramesAreFlaggedAndCounted : Prop :=
  ((∀ (b : Byte) (k : Nat), k < 8 → (byteBits b)[k]? = some (b.getLsbD (7 - k))) ∧
   ∀ (bytes : List Byte) (tail : List Bool), tail.length < 8 → completeBytes (bitsOf bytes ++ tail) = bytes) ∧
  (∀ (s : State) (i : Instr) (sdi : List Bool), encodeFrame i = some sdi → isFetch i = false → s.req.link ≠ .idle →
     s.req.transfer ≠ .ignored → exec i s = .next (s.busyDiscarded (sdi.length + s.req.later.length))) ∧
  (∀ (code l : Byte) (rest : List Byte) (tail : List Bool), tail.length < 8 →
     let judged := judgeFrame (bitsOf (code :: l :: rest) ++ tail)
     (requestLength code.toNat = none → judged = .malformed) ∧
     (∀ n, requestLength code.toNat = some n → l.toNat ≠ n → judged = .malformed) ∧
     (∀ n, requestLength code.toNat = some n → l.toNat = n → rest.length < n → judged = .short) ∧
     (∀ n, requestLength code.toNat = some n → l.toNat = n → n ≤ rest.length → code.toNat ≠ 0 →
       ∃ i, judged = .request i ∧ isFetch i = false ∧ encodeFrame i = some (bitsOf (code :: l :: rest.take n))) ∧
     (l.toNat = 0 → code.toNat = 0 → judged = .request (.fetch (.rise (bitsOf rest ++ tail))))) ∧
  (∀ (s : State) (bits : List Bool), s.req.transfer ≠ .ignored →
     let sdi := bits ++ s.req.later
     let q := s.req.ended sdi.length
     (judgeFrame sdi = .malformed → exec (.frameDiscarded bits) s = .next
       { s with req := { q with discarded := true, malformedCount := min 65535 (q.malformedCount + 1) } }) ∧
     (judgeFrame sdi = .short → exec (.frameDiscarded bits) s = .next
       { s with req := { q with discarded := true, discardedCount := min 65535 (q.discardedCount + 1) } }) ∧
     (∀ i, judgeFrame sdi = .request i → isFetch i = false → s.req.link ≠ .idle → exec (.frameDiscarded bits) s = .next
       { s with req := { q with discarded := true, discardedCount := min 65535 (q.discardedCount + 1) } }) ∧
     (sdi.length < 16 → exec (.frameDiscarded bits) s = .next { s with req := q }) ∧
     (∀ i, judgeFrame sdi = .request i → isFetch i = true ∨ s.req.link = .idle → exec (.frameDiscarded bits) s = .next s)) ∧
  (∀ s : State, s.req.transfer = .ignored → ∃ out : List Bool, ∀ c : Instr,
     ((∃ sdi, encodeFrame c = some sdi) ∨ ∃ sdi, c = .frameDiscarded sdi) →
       exec c s = .next
         { s with req := { s.req with transfer := .high, sdo := out, ignoredCount := s.req.ignoredCount + 1 } })


/-- The link status byte is taken at the fall of CS_N: the link state in bits 1-0, the DISCARDED flag in bit 2 (R185, R202). A FETCH
is answered as its L byte finds the link: the waiting frame, or NOT_READY; a frame is its status, its length and its data (R190,
R191, R202). It shifts out the link status byte, a zero, the frame and zeros, and clears the DISCARDED flag; when it delivers a
waiting frame whole it empties the slot, makes the link IDLE and clears RESPONSE_READY (R180, R187, R191). SDO is driven while CS_N
is low, and high-impedance while it is high (R184). A FETCH whose fall and L byte are no commands of their own is one event (log 8),
and a fall, an L byte or bits whose occasion is absent change nothing (log 6): the model's choices. -/
def Obligations.FetchDeliversTheWaitingFrame : Prop :=
  (∀ q : RequestPort,
     q.statusByte.toNat =
         (match q.link with | .idle => 0 | .executing => 1 | .ready => 2) + (if q.discarded = true then 4 else 0) ∧
       (q.transfer = .high → q.sdoDriven = false) ∧ ∀ st f later, q.transfer = .low st f later → q.sdoDriven = true) ∧
  (∀ r : Response, r.frame =
     (match r.status with
       | .ok => 0x00 | .clamped => 0x01 | .notReady => 0x02 | .badParam => 0x10 | .noEntry => 0x11 | .exist => 0x12
       | .full => 0x13 | .order => 0x14 | .inWindow => 0x15 | .entryOpen => 0x16 | .axisState => 0x17
       | .pointState => 0x18) ::
       BitVec.ofNat 8 r.data.length :: BitVec.ofNat 8 (r.data.length / 256) :: r.data) ∧
  (∀ s : State,
     (s.req.transfer = .high → exec (.fetch .fall) s = .next
       { s with req := { s.req with transfer := .low s.req.statusByte .undecided [] } }) ∧
     (s.req.transfer ≠ .high → exec (.fetch .fall) s = .next s) ∧
     (∀ st later, s.req.transfer = .low st .undecided later →
       (∀ r, s.req.link = .ready → s.req.slot = some r → exec (.fetch .lByte) s = .next
         { s with req := { s.req with transfer := .low st (.delivers r) later } }) ∧
       (s.req.link ≠ .ready → exec (.fetch .lByte) s = .next
         { s with req := { s.req with transfer := .low st .notReady later } })) ∧
     ((∀ st later, s.req.transfer ≠ .low st .undecided later) → exec (.fetch .lByte) s = .next s) ∧
     ∀ sdi,
       (∀ st f later, s.req.transfer = .low st f later → exec (.fetch (.runOn sdi)) s = .next
         { s with req := { s.req with transfer := .low st f (later ++ sdi) } }) ∧
       ((∀ st f later, s.req.transfer ≠ .low st f later) → exec (.fetch (.runOn sdi)) s = .next s)) ∧
  ∀ (s : State) (sdi : List Bool), s.req.transfer ≠ .ignored →
    let n := 16 + sdi.length + s.req.later.length
    let status := match s.req.transfer with | .low st _ _ => st | _ => s.req.statusByte
    let ended (r : Response) : RequestPort :=
      { s.req with
        discarded := false, transfer := .high
        sdo := (bitsOf (status :: 0 :: r.frame) ++ List.replicate n false).take n }
    let undecided : Prop := s.req.transfer = .high ∨ ∃ st later, s.req.transfer = .low st .undecided later
    let delivers (r : Response) : Prop :=
      (∃ st later, s.req.transfer = .low st (.delivers r) later) ∨
        (undecided ∧ s.req.link = .ready ∧ s.req.slot = some r)
    (∀ r, delivers r → 8 * (5 + r.data.length) ≤ n →
      ∃ t, exec (.fetch (.rise sdi)) s = .next t ∧
        t = { s with notices := { t.notices with routes := s.notices.routes }
                     req := { ended r with slot := none, link := .idle } } ∧
        ∀ k, t.notices.flags.get k = (s.notices.flags.get k && decide (k ≠ .responseReady))) ∧
    (∀ r, delivers r → n < 8 * (5 + r.data.length) → exec (.fetch (.rise sdi)) s = .next { s with req := ended r }) ∧
    ((∀ r, ¬delivers r) →
      exec (.fetch (.rise sdi)) s = .next { s with req := ended { status := .notReady, data := [] } })

/-! ### Frames -/

/-- Every well-formed request is read back from its own frame, with every field at every value, and from that frame followed by any other
bits; a FETCH keeps what follows its L byte (R184, R186, R192, R200, R203). -/
def Obligations.FramesReadBackTheirRequests : Prop :=
  ∀ (i : Instr) (sdi : List Bool), i.wellFormed = true → encodeFrame i = some sdi →
    judgeFrame sdi = .request i ∧
      (isFetch i = false → ∀ later, judgeFrame (sdi ++ later) = .request i) ∧
      ∀ bits later, i = .fetch (.rise bits) → judgeFrame (sdi ++ later) = .request (.fetch (.rise (bits ++ later)))


/-! ### Accesses of the executor -/

/-- The access of an accepted LOAD ENTRY: the lowest FREE slot becomes LIVE with its revision raised, the definition as given and
the results at their LOAD values; the item joins the index at its key's place, and the edit is handed to the point (R71, R72, R80,
R84 to R86). -/
def Obligations.LoadAccessInsertsTheEntry : Prop :=
  ∀ (s : State) (p : Point) (key : Nat) (nominal : Int) (halfWidth : Nat) (hold trigger clamped : Bool) (n : Nat),
    TableOk s.table → s.Grants (.load p key nominal halfWidth hold trigger clamped) →
    (∀ it ∈ s.index p, it.key ≠ key) →
    n < 2048 → (s.table.slot n).entry = none → (∀ m, m < n → (s.table.slot m).entry ≠ none) →
    PassesOrder (s.index p) key (nominal - halfWidth) (nominal + halfWidth) →
    PassesInWindow (s.point p) (nominal - halfWidth) (nominal + halfWidth) →
      let rev := if (s.table.slot n).revision < 65535 then (s.table.slot n).revision + 1 else 0
      let none_yet : DirStats := { n := 0, sum := 0, extremes := none }
      let e : Entry :=
        { point := p, key := key, nominal := nominal, halfWidth := halfWidth, hold := hold, trigger := trigger
          results :=
            { forward := none_yet, reverse := none_yet, missCount := 0, rejectCount := 0, passTotal := 0,
              lastPass := none, staleSeen := false, saturated := false } }
      let it : IndexItem :=
        { slot := n, key := key, revision := rev, lower := nominal - halfWidth, upper := nominal + halfWidth
          hold := hold, trigger := trigger }
      ∃ t, exec .loadEntryAccess s = .next t ∧ AccessFrame s t (editAnswer clamped n rev) ∧
        t.table.slot n = { revision := rev, entry := some e } ∧
        (∀ m, m ≠ n → t.table.slot m = s.table.slot m) ∧
        IndexOrdered (t.index p) ∧ (∀ a, a ∈ t.index p ↔ a = it ∨ a ∈ s.index p) ∧
        t.index p.other = s.index p.other ∧ t.point p.other = s.point p.other ∧
        t.point p = ((s.point p).handEdit (t.index p) key none (some it)).point ∧
        ∀ k, t.notices.flags.get k =
          (s.notices.flags.get k || decide (k ∈ ((s.point p).handEdit (t.index p) key none (some it)).events))

/-- The access of an accepted AMEND ENTRY: nominal, half-width, hold and trigger are written, the results stay, the revision rises, the item
is replaced, and the edit is handed to the point (R72, R80, R84, R87, R88). The access of an accepted CLEAR ENTRY: the results return to
their LOAD values, the definition stays, the revision rises in the slot and in the index, and nothing is handed to the point (R89). -/
def Obligations.AmendAndClearAccessesRewriteTheEntry : Prop :=
  (∀ (s : State) (p : Point) (key : Nat) (nominal : Int) (halfWidth : Nat) (hold trigger clamped : Bool) (it : IndexItem)
     (e : Entry),
     TableOk s.table → s.Grants (.amend p key nominal halfWidth hold trigger clamped) →
     it ∈ s.index p → it.key = key → (s.table.slot it.slot).entry = some e →
     (∀ d dir r, (s.point p).cursor = .opened d dir r → d.slot ≠ it.slot) →
     PassesOrder (s.index p) key (nominal - halfWidth) (nominal + halfWidth) →
     PassesInWindow (s.point p) (nominal - halfWidth) (nominal + halfWidth) →
       let rev := if (s.table.slot it.slot).revision < 65535 then (s.table.slot it.slot).revision + 1 else 0
       let new : IndexItem :=
         { slot := it.slot, key := key, revision := rev, lower := nominal - halfWidth, upper := nominal + halfWidth
           hold := hold, trigger := trigger }
       ∃ t, exec .amendEntryAccess s = .next t ∧ AccessFrame s t (editAnswer clamped it.slot rev) ∧
         t.table.slot it.slot =
           { revision := rev
             entry := some { e with nominal := nominal, halfWidth := halfWidth, hold := hold, trigger := trigger } } ∧
         (∀ m, m ≠ it.slot → t.table.slot m = s.table.slot m) ∧
         t.index p = (s.index p).map (fun h => if h.key = key then new else h) ∧
         t.index p.other = s.index p.other ∧ t.point p.other = s.point p.other ∧
         t.point p = ((s.point p).handEdit (t.index p) key (some it) (some new)).point ∧
         ∀ k, t.notices.flags.get k =
           (s.notices.flags.get k || decide (k ∈ ((s.point p).handEdit (t.index p) key (some it) (some new)).events))) ∧
  (∀ (s : State) (p : Point) (key : Nat) (it : IndexItem) (e : Entry),
     TableOk s.table → s.Grants (.clear p key) → it ∈ s.index p → it.key = key → (s.table.slot it.slot).entry = some e →
       let rev := if (s.table.slot it.slot).revision < 65535 then (s.table.slot it.slot).revision + 1 else 0
       let none_yet : DirStats := { n := 0, sum := 0, extremes := none }
       ∃ t, exec .clearEntryAccess s = .next t ∧ AccessFrame s t (editAnswer false it.slot rev) ∧
         t.table.slot it.slot =
           { revision := rev
             entry := some { e with
               results :=
                 { forward := none_yet, reverse := none_yet, missCount := 0, rejectCount := 0, passTotal := 0,
                   lastPass := none, staleSeen := false, saturated := false } } } ∧
         (∀ m, m ≠ it.slot → t.table.slot m = s.table.slot m) ∧
         t.index p = (s.index p).map (fun h => if h.key = key then { it with revision := rev } else h) ∧
         t.index p.other = s.index p.other ∧ t.points = s.points ∧ t.notices = s.notices)


/-- A step of RETIRE ENTRIES: the live entry with the least key left in the range is skipped when OPEN; otherwise its slot becomes
FREE with its revision raised, its item leaves the index and the edit is handed on. The next access is asked for while a live entry
of the range is left; otherwise, or when none was found, the counts are answered (R72, R84, R91 to R93). -/
def Obligations.RetireStepFreesOrSkips : Prop :=
  ∀ (s : State) (p : Point) (next last retired skipped : Nat), TableOk s.table →
    s.Grants (.retire p next last retired skipped) →
    let counts (a b : Nat) : AfterAccess := .answer { status := .ok, data := leBytes 2 a ++ leBytes 2 b }
    ((∀ o ∈ s.index p, ¬(next ≤ o.key ∧ o.key ≤ last)) →
      exec .retireStep s = .next (s.accessed (counts retired skipped))) ∧
    ∀ it ∈ s.index p, next ≤ it.key → it.key ≤ last →
      (∀ o ∈ s.index p, next ≤ o.key → it.key ≤ o.key) →
      let follows (a b : Nat) (f : AfterAccess) : Prop :=
        ((∃ o ∈ s.index p, it.key < o.key ∧ o.key ≤ last) → f = .ask (.retire p (it.key + 1) last a b)) ∧
        ((∀ o ∈ s.index p, ¬(it.key < o.key ∧ o.key ≤ last)) → f = counts a b)
      ((∃ d dir r, (s.point p).cursor = .opened d dir r ∧ d.slot = it.slot) →
        ∃ f, exec .retireStep s = .next (s.accessed f) ∧ follows retired (skipped + 1) f) ∧
      ((∀ d dir r, (s.point p).cursor = .opened d dir r → d.slot ≠ it.slot) →
        ∃ t f, exec .retireStep s = .next t ∧ AccessFrame s t f ∧ follows (retired + 1) skipped f ∧
          t.table.slot it.slot =
            { revision := if (s.table.slot it.slot).revision < 65535 then (s.table.slot it.slot).revision + 1 else 0
              entry := none } ∧
          (∀ m, m ≠ it.slot → t.table.slot m = s.table.slot m) ∧
          t.index p = (s.index p).filter (fun h => decide (h.key ≠ it.key)) ∧
          t.index p.other = s.index p.other ∧ t.point p.other = s.point p.other ∧
          t.point p = ((s.point p).handEdit (t.index p) it.key (some it) none).point ∧
          ∀ k, t.notices.flags.get k =
            (s.notices.flags.get k || decide (k ∈ ((s.point p).handEdit (t.index p) it.key (some it) none).events)))

/-- The access of LOOKUP ENTRY copies the entry's record with its state, and a step of SWEEP ENTRIES copies the next one in key order;
the sweep answers after the eighth copy or the last entry, and otherwise asks for its next access. Neither changes the table or the
points (R77, R94, R95). -/
def Obligations.LookupAndSweepCopyRecords : Prop :=
  ∀ (s : State) (p : Point), TableOk s.table →
    let record (it : IndexItem) (e : Entry) : List Byte :=
      entryRecord it.slot (s.table.slot it.slot).revision e
        (match (s.point p).cursor with
        | .armed d _ _ => if d.slot = it.slot then 1 else 0
        | .opened d _ _ => if d.slot = it.slot then 2 else 0
        | .inactive => 0
        | .atEnd => 0)
    (∀ it e, it ∈ s.index p → (s.table.slot it.slot).entry = some e → s.Grants (.lookup p it.key) →
      exec .lookupEntryAccess s = .next (s.accessed (.answer { status := .ok, data := record it e }))) ∧
    ∀ (next copied : Nat) (records : List Byte), s.Grants (.sweep p next copied records) →
      ((∀ o ∈ s.index p, next ≤ o.key → 65535 < o.key) →
        exec .sweepStep s = .next (s.accessed (.answer { status := .ok, data := leBytes 1 copied ++ records }))) ∧
      ∀ it e, it ∈ s.index p → (s.table.slot it.slot).entry = some e → next ≤ it.key → it.key ≤ 65535 →
        (∀ o ∈ s.index p, next ≤ o.key → it.key ≤ o.key) →
        (copied + 1 < 8 → (∃ o ∈ s.index p, it.key < o.key ∧ o.key ≤ 65535) →
          exec .sweepStep s = .next
            (s.accessed (.ask (.sweep p (it.key + 1) (copied + 1) (records ++ record it e))))) ∧
        (8 ≤ copied + 1 ∨ (∀ o ∈ s.index p, it.key < o.key → 65535 < o.key) →
          exec .sweepStep s = .next
            (s.accessed (.answer
              { status := .ok, data := leBytes 1 (copied + 1 : Nat) ++ (records ++ record it e) })))

/-- A table request that a check at its access refuses uses the access, is answered with the first failing check's status, and changes
nothing else (R81 to R83, R85, R87, R89, R94). -/
def Obligations.RefusedAccessesChangeNothing : Prop :=
  ∀ (s : State) (p : Point) (key : Nat), TableOk s.table →
    let refused (c : Instr) (st : Status) : Prop :=
      exec c s = .next (s.accessed (.answer { status := st, data := [] }))
    (∀ (nominal : Int) (halfWidth : Nat) (hold trigger clamped : Bool),
      s.Grants (.load p key nominal halfWidth hold trigger clamped) →
      ((∃ it ∈ s.index p, it.key = key) → refused .loadEntryAccess .exist) ∧
      ((∀ it ∈ s.index p, it.key ≠ key) →
        ((∀ n, n < 2048 → (s.table.slot n).entry ≠ none) → refused .loadEntryAccess .full) ∧
        ((∃ n, n < 2048 ∧ (s.table.slot n).entry = none) →
          (¬PassesOrder (s.index p) key (nominal - halfWidth) (nominal + halfWidth) → refused .loadEntryAccess .order) ∧
          (PassesOrder (s.index p) key (nominal - halfWidth) (nominal + halfWidth) →
            ¬PassesInWindow (s.point p) (nominal - halfWidth) (nominal + halfWidth) →
              refused .loadEntryAccess .inWindow)))) ∧
    (∀ (nominal : Int) (halfWidth : Nat) (hold trigger clamped : Bool),
      s.Grants (.amend p key nominal halfWidth hold trigger clamped) →
      ((∀ it ∈ s.index p, it.key ≠ key) → refused .amendEntryAccess .noEntry) ∧
      ∀ it ∈ s.index p, it.key = key →
        ((∃ d dir r, (s.point p).cursor = .opened d dir r ∧ d.slot = it.slot) →
          refused .amendEntryAccess .entryOpen) ∧
        ((∀ d dir r, (s.point p).cursor = .opened d dir r → d.slot ≠ it.slot) →
          (¬PassesOrder (s.index p) key (nominal - halfWidth) (nominal + halfWidth) → refused .amendEntryAccess .order) ∧
          (PassesOrder (s.index p) key (nominal - halfWidth) (nominal + halfWidth) →
            ¬PassesInWindow (s.point p) (nominal - halfWidth) (nominal + halfWidth) →
              refused .amendEntryAccess .inWindow))) ∧
    ((∀ it ∈ s.index p, it.key ≠ key) →
      (s.Grants (.clear p key) → refused .clearEntryAccess .noEntry) ∧
      (s.Grants (.lookup p key) → refused .lookupEntryAccess .noEntry))

/-- The access of RESTART, as one event: every LIVE slot is FREE with its revision raised, both indexes are empty, each point is IDLE or
DISABLED with no pass, queue or counter left, the evaluator's pointer is MP0, every notice and the port's counts are cleared; the
channels, the medium, the routes and the configurations stay (R25, R42, R52, R70, R99, R129, R148, R182, R198). -/
def Obligations.RestartAccessEmptiesTheTable : Prop :=
  ∀ s : State, SlotsOk s.table.slots → s.Grants .restart →
    ∃ t, exec .restartAccess s = .next t ∧
      (∀ n, t.table.slot n =
        if (s.table.slot n).entry = none then s.table.slot n
        else
          { revision := if (s.table.slot n).revision < 65535 then (s.table.slot n).revision + 1 else 0
            entry := none }) ∧
      (∀ p, t.index p = []) ∧
      (∀ p, t.point p =
        { s.point p with
          state := if (s.point p).config.enabled then .idle else .disabled
          cause := .none, tracker := .noPulse, stbKept := (s.point p).stb, cursor := .inactive, queue := []
          counters := ⟨0, 0, 0, 0, 0⟩ }) ∧
      t.pointer = .mp0 ∧ (∀ k, t.notices.flags.get k = false) ∧ t.notices.routes = s.notices.routes ∧
      t.channels = s.channels ∧ t.sampled = s.sampled ∧ t.lostNow = s.lostNow ∧ t.refok = s.refok ∧ t.cu = s.cu ∧
      t.pending = s.pending ∧
      t.port = { occupant := .executor, left := 8, waitCount := 0 } ∧
      t.req =
        { s.req with
          discarded := false, discardedCount := 0, malformedCount := 0
          executor := .accessing (.answer { status := .ok, data := [] }) }

/-- At the completion of an executor access the port is free, and the response is placed with the link READY and RESPONSE_READY raised,
or the next access is asked for (R130, R143, R180, R189; log 18 for the latter). At the completion of an evaluator access the applied
record leaves its queue and the port is free (R130, R133; log 17 for which queue). That a completion acts whatever periods of the access
are left is the model's choice (log 6). -/
def Obligations.CompletionsFreeThePort : Prop :=
  ∀ s : State,
    let freed : TablePort := { occupant := .free, left := 0, waitCount := s.port.waitCount }
    (∀ r, s.req.executor = .accessing (.answer r) →
      exec .executorAccessComplete s = .next
        { s with
          port := freed
          notices := { s.notices with flags := { s.notices.flags with responseReady := true } }
          req := { s.req with link := .ready, slot := some r, executor := .free } }) ∧
    (∀ j, s.req.executor = .accessing (.ask j) →
      exec .executorAccessComplete s = .next { s with port := freed, req := { s.req with executor := .waiting j } }) ∧
    (s.port.occupant = .evaluator →
      exec .evaluatorAccessComplete s = .next
        ({ s with port := freed }.setPoint s.pointer.other
          { s.point s.pointer.other with queue := (s.point s.pointer.other).queue.drop 1 }))

/-! ### The pass evaluator -/

/-- A grant to the evaluator takes the oldest record of the queue the pointer names, or of the other when that is empty, and leaves it in
its queue; the pointer names the other point afterwards. A record whose slot is LIVE with its revision is applied to the entry's results,
and a MISSED or JUMPED one raises ENTRY_MISSED; any other record is orphaned and counted, and changes no slot (R130 to R135, R139 to
R141). -/
def Obligations.EvaluatorAppliesOrOrphansTheOldest : Prop :=
  ∀ (s : State) (p : Point) (r : PassRecord) (rest : List PassRecord),
    SlotsOk s.table.slots → s.port.occupant = .free → (s.executorRequests = false ∨ s.port.waitCount < 4) →
    (p = s.pointer ∨ (p = s.pointer.other ∧ (s.point s.pointer).queue = [])) → (s.point p).queue = r :: rest →
      ∃ t, exec .evaluatorAccess s = .next t ∧ t.channels = s.channels ∧ t.sampled = s.sampled ∧
        t.lostNow = s.lostNow ∧ t.refok = s.refok ∧ t.cu = s.cu ∧ t.req = s.req ∧ t.pending = s.pending ∧
        t.notices.routes = s.notices.routes ∧ t.pointer = p.other ∧
        t.table.index = s.table.index ∧ t.point p.other = s.point p.other ∧
        t.port =
          { occupant := .evaluator, left := 8
            waitCount := if s.executorRequests then s.port.waitCount + 1 else s.port.waitCount } ∧
        (∀ n, n ≠ r.slot → t.table.slot n = s.table.slot n) ∧
        (∀ e, s.table.slot r.slot = { revision := r.revision, entry := some e } →
          t.table.slot r.slot =
              { revision := r.revision, entry := some { e with results := e.results.applyPass e.nominal r } } ∧
            t.point p = s.point p ∧
            ∀ k, t.notices.flags.get k = true ↔
              s.notices.flags.get k = true ∨ (k = .entryMissed ∧ (r.outcome = .missed ∨ r.outcome = .jumped))) ∧
        ((s.table.slot r.slot).entry = none ∨ (s.table.slot r.slot).revision ≠ r.revision →
          t.table = s.table ∧ t.notices = s.notices ∧
            t.point p =
              { s.point p with
                counters :=
                  { (s.point p).counters with orphaned := min 65535 ((s.point p).counters.orphaned + 1) } })

/-- A MATCHED record applied to an entry: the deviation is clamped to 32 bits and accumulated into its direction unless that is full, which
sets the saturated flag; a stale record sets the stale-seen flag; the counts of misses and rejects stay (R135 to R138). A record that is
not MATCHED reaches no statistic and no flag: MISSED and JUMPED raise the miss count, the others the reject count, and every one sets the
last outcome and direction and raises the pass total (R135, R138 to R140). -/
def Obligations.AppliedRecordsReachTheResults : Prop :=
  (∀ (res : Results) (nominal x : Int) (r : PassRecord), r.outcome = .matched x →
     let dev := max (-2147483648) (min 2147483647 (x - nominal))
     let d := res.stats r.direction
     let res' := res.applyPass nominal r
     res'.lastPass = some { outcome := .matched dev, direction := r.direction } ∧
     res'.passTotal = min 65535 (res.passTotal + 1) ∧ res'.missCount = res.missCount ∧
     res'.rejectCount = res.rejectCount ∧ res'.staleSeen = (res.staleSeen || r.stale) ∧
     (∀ dir, dir ≠ r.direction → res'.stats dir = res.stats dir) ∧
     (65535 ≤ d.n → res'.stats r.direction = d ∧ res'.saturated = true) ∧
     (d.n < 65535 → res'.saturated = res.saturated ∧ (res'.stats r.direction).n = d.n + 1 ∧
       (res'.stats r.direction).sum = d.sum + dev ∧
       (d.extremes = none → (res'.stats r.direction).extremes = some { min := dev, max := dev }) ∧
       ∀ e, d.extremes = some e →
         (res'.stats r.direction).extremes = some { min := min e.min dev, max := max e.max dev })) ∧
  (∀ (res : Results) (nominal : Int) (r : PassRecord), (∀ x, r.outcome ≠ .matched x) →
     (r.outcome = .missed ∨ r.outcome = .jumped →
       res.applyPass nominal r =
         { res with
           missCount := min 255 (res.missCount + 1), passTotal := min 65535 (res.passTotal + 1)
           lastPass := some { outcome := r.outcome, direction := r.direction } }) ∧
     (r.outcome ≠ .missed → r.outcome ≠ .jumped →
       res.applyPass nominal r =
         { res with
           rejectCount := min 255 (res.rejectCount + 1), passTotal := min 65535 (res.passTotal + 1)
           lastPass := some { outcome := r.outcome, direction := r.direction } }))


/-- The derived values of a record that is read (R76): the mean is the rounded quotient, the spread the difference of the extremes, both
present when n is above 0; the reversal difference is the difference of the means, present when both are. -/
def Obligations.DerivedValuesAreMeanSpreadAndReversal : Prop :=
  (∀ d : DirStats, StatsOk d →
    (d.n = 0 → d.mean = none ∧ d.spread = none) ∧
    (0 < d.n → d.mean = some (roundDiv d.sum d.n) ∧ ∃ e, d.extremes = some e ∧ d.spread = some (e.max - e.min) ∧
      0 ≤ e.max - e.min ∧ e.max - e.min ≤ 4294967295 ∧
      -2147483648 ≤ roundDiv d.sum d.n ∧ roundDiv d.sum d.n ≤ 2147483647)) ∧
  ∀ r : Results, ResultsOk r →
    (∀ f v, r.forward.mean = some f → r.reverse.mean = some v → r.reversal = some (f - v) ∧ |f - v| ≤ 4294967295) ∧
    (r.forward.mean = none ∨ r.reverse.mean = none → r.reversal = none)
end

