-- ==== Sys2Proof/Laws/Bits.lean ====
section
/-! SUPPORT. The lengths of fields and of their bits, and that the port reads back the bytes whose bits cross it (R184, R200). -/

namespace Sys2Proof

/-- A field of `n` bytes has `n` bytes. -/
@[simp] theorem leBytes_length (n : Nat) (v : Int) : (leBytes n v).length = n := by
  induction n generalizing v with
  | zero => rfl
  | succ n ih => simp [leBytes, ih]

@[simp] theorem bytesOf_length {w : Nat} (n : Nat) (v : BitVec w) : (bytesOf n v).length = n := leBytes_length n _

@[simp] theorem byteBits_length (b : Byte) : (byteBits b).length = 8 := rfl

@[simp] theorem bitsOf_nil : bitsOf [] = [] := rfl

theorem bitsOf_cons (b : Byte) (bs : List Byte) : bitsOf (b :: bs) = byteBits b ++ bitsOf bs := rfl

@[simp] theorem bitsOf_append (as bs : List Byte) : bitsOf (as ++ bs) = bitsOf as ++ bitsOf bs := by
  induction as with
  | nil => rfl
  | cons a as ih => simp [bitsOf_cons, ih]

/-- Eight levels for each byte. -/
@[simp] theorem bitsOf_length (bs : List Byte) : (bitsOf bs).length = 8 * bs.length := by
  induction bs with
  | nil => rfl
  | cons b bs ih =>
    simp only [bitsOf_cons, List.length_append, byteBits_length, ih, List.length_cons]
    omega

/-- Eight bits spell the number they are the bits of. -/
theorem bitsNat_testBit : ∀ n : Fin 256,
    bitsNat 0 [n.val.testBit 7, n.val.testBit 6, n.val.testBit 5, n.val.testBit 4, n.val.testBit 3, n.val.testBit 2,
      n.val.testBit 1, n.val.testBit 0] = n.val := by decide +kernel

/-- Eight levels spell the byte they are the bits of. -/
theorem ofNat_bitsNat_byteBits (b : Byte) : BitVec.ofNat 8 (bitsNat 0 (byteBits b)) = b :=
  (congrArg (BitVec.ofNat 8) (bitsNat_testBit ⟨b.toNat, b.isLt⟩)).trans (by simp)

/-- The port reads back the bytes whose bits cross it, and then whatever follows them. -/
@[simp] theorem completeBytes_bitsOf_append (bs : List Byte) (later : List Bool) :
    completeBytes (bitsOf bs ++ later) = bs ++ completeBytes later := by
  induction bs with
  | nil => rfl
  | cons b bs ih =>
    show BitVec.ofNat 8 (bitsNat 0 (byteBits b)) :: completeBytes (bitsOf bs ++ later) = _
    rw [ofNat_bitsNat_byteBits, ih]
    rfl

@[simp] theorem completeBytes_bitsOf (bs : List Byte) : completeBytes (bitsOf bs) = bs := by
  have h := completeBytes_bitsOf_append bs []
  rw [List.append_nil] at h
  exact h.trans (List.append_nil bs)

/-- Fewer than eight levels make no byte. -/
theorem completeBytes_of_lt {sdi : List Bool} (h : sdi.length < 8) : completeBytes sdi = [] := by
  match sdi with
  | [] | [_] | [_, _] | [_, _, _] | [_, _, _, _] | [_, _, _, _, _] | [_, _, _, _, _, _] | [_, _, _, _, _, _, _] => rfl
  | _ :: _ :: _ :: _ :: _ :: _ :: _ :: _ :: _ =>
    simp only [List.length_cons] at h
    omega

/-- One byte for every eight levels. -/
theorem completeBytes_length : ∀ sdi : List Bool, (completeBytes sdi).length = sdi.length / 8
  | b7 :: b6 :: b5 :: b4 :: b3 :: b2 :: b1 :: b0 :: rest => by
    have h := completeBytes_length rest
    show (completeBytes rest).length + 1 = (rest.length + 8) / 8
    omega
  | [] | [_] | [_, _] | [_, _, _] | [_, _, _, _] | [_, _, _, _, _] | [_, _, _, _, _, _] | [_, _, _, _, _, _, _] => by
    rw [completeBytes_of_lt (by simp)]
    simp

end Sys2Proof
end

