-- ==== Sys2Proof/Laws/State.lean ====
section
/-! SUPPORT. What each update of the state leaves in each field: families of like things read after a write, and one
lemma for each field and each named update, so that no proof unfolds a record update. -/

namespace Sys2Proof

/-! ### Families -/

@[simp] theorem Pair.get_mp0 {α : Type} (v : Pair α) : v.get .mp0 = v.mp0 := rfl
@[simp] theorem Pair.get_mp1 {α : Type} (v : Pair α) : v.get .mp1 = v.mp1 := rfl

@[simp] theorem Pair.get_set_same {α : Type} (v : Pair α) (p : Point) (x : α) : (v.set p x).get p = x := by
  cases p <;> rfl

theorem Pair.get_set_of_ne {α : Type} (v : Pair α) {p q : Point} (x : α) (h : q ≠ p) :
    (v.set p x).get q = v.get q := by
  cases p <;> cases q <;> first | rfl | exact absurd rfl h

theorem Pair.get_set {α : Type} (v : Pair α) (p q : Point) (x : α) :
    (v.set p x).get q = if q = p then x else v.get q := by
  cases p <;> cases q <;> rfl

@[simp] theorem Pair.set_get {α : Type} (v : Pair α) (p : Point) : v.set p (v.get p) = v := by
  cases p <;> rfl

theorem Pair.eq_of_get {α : Type} {v w : Pair α} (h : ∀ p, v.get p = w.get p) : v = w := by
  have h0 := h .mp0
  have h1 := h .mp1
  clear h
  cases v; cases w; simp_all

@[simp] theorem Point.other_ne (p : Point) : p.other ≠ p := by cases p <;> decide

@[simp] theorem Point.ne_other (p : Point) : p ≠ p.other := by cases p <;> decide

@[simp] theorem Point.other_other (p : Point) : p.other.other = p := by cases p <;> rfl

@[simp] theorem Axes.get_ofFn {α : Type} (f : Axis → α) (a : Axis) : (Axes.ofFn f).get a = f a := by
  fin_cases a <;> rfl

@[simp] theorem Axes.get_set_same {α : Type} (v : Axes α) (a : Axis) (x : α) : (v.set a x).get a = x := by
  fin_cases a <;> rfl

theorem Axes.get_set {α : Type} (v : Axes α) (a b : Axis) (x : α) :
    (v.set a x).get b = if b = a then x else v.get b := by
  fin_cases a <;> fin_cases b <;> rfl

@[simp] theorem Axes.get_all {α : Type} (x : α) (a : Axis) : (Axes.all x).get a = x := by
  fin_cases a <;> rfl

theorem Axes.eq_of_get {α : Type} {v w : Axes α} (h : ∀ a, v.get a = w.get a) : v = w := by
  have h0 := h 0
  have h1 := h 1
  have h2 := h 2
  have h3 := h 3
  have h4 := h 4
  have h5 := h 5
  clear h
  cases v; cases w; simp_all [Axes.get]

theorem anyAxis_iff (f : Axis → Bool) : anyAxis f = true ↔ ∃ a, f a = true := by
  constructor
  · intro h
    simp only [anyAxis, Bool.or_eq_true] at h
    rcases h with ((((h | h) | h) | h) | h) | h <;> exact ⟨_, h⟩
  · rintro ⟨a, h⟩
    fin_cases a <;> simp_all [anyAxis]

end Sys2Proof

namespace Sys2Proof.Machine

@[simp] theorem Kinds.get_ofFn {α : Type} (f : EventKind → α) (k : EventKind) : (Kinds.ofFn f).get k = f k := by
  cases k <;> rfl

@[simp] theorem Kinds.get_all {α : Type} (x : α) (k : EventKind) : (Kinds.all x).get k = x := by
  cases k <;> rfl

theorem Kinds.eq_of_get {α : Type} {v w : Kinds α} (h : ∀ k, v.get k = w.get k) : v = w := by
  have h0 := h .axisLost
  have h1 := h .refLost
  have h2 := h .committed
  have h3 := h .panicCommit
  have h4 := h .mediumStale
  have h5 := h .entryMissed
  have h6 := h .pointHalted
  have h7 := h .pointSuspended
  have h8 := h .scanEnd
  have h9 := h .responseReady
  clear h
  cases v; cases w; simp_all [Kinds.get]

/-! ### Points -/

@[simp] theorem State.point_mp0 (s : State) : s.point .mp0 = s.points.mp0 := rfl
@[simp] theorem State.point_mp1 (s : State) : s.point .mp1 = s.points.mp1 := rfl

/-! ### A point replaced -/

@[simp] theorem State.setPoint_channels (s : State) (p : Point) (m : MeasuringPoint) : (s.setPoint p m).channels = s.channels := rfl
@[simp] theorem State.setPoint_sampled (s : State) (p : Point) (m : MeasuringPoint) : (s.setPoint p m).sampled = s.sampled := rfl
@[simp] theorem State.setPoint_lostNow (s : State) (p : Point) (m : MeasuringPoint) : (s.setPoint p m).lostNow = s.lostNow := rfl
@[simp] theorem State.setPoint_refok (s : State) (p : Point) (m : MeasuringPoint) : (s.setPoint p m).refok = s.refok := rfl
@[simp] theorem State.setPoint_cu (s : State) (p : Point) (m : MeasuringPoint) : (s.setPoint p m).cu = s.cu := rfl
@[simp] theorem State.setPoint_table (s : State) (p : Point) (m : MeasuringPoint) : (s.setPoint p m).table = s.table := rfl
@[simp] theorem State.setPoint_port (s : State) (p : Point) (m : MeasuringPoint) : (s.setPoint p m).port = s.port := rfl
@[simp] theorem State.setPoint_pointer (s : State) (p : Point) (m : MeasuringPoint) : (s.setPoint p m).pointer = s.pointer := rfl
@[simp] theorem State.setPoint_notices (s : State) (p : Point) (m : MeasuringPoint) : (s.setPoint p m).notices = s.notices := rfl
@[simp] theorem State.setPoint_req (s : State) (p : Point) (m : MeasuringPoint) : (s.setPoint p m).req = s.req := rfl
@[simp] theorem State.setPoint_pending (s : State) (p : Point) (m : MeasuringPoint) : (s.setPoint p m).pending = s.pending := rfl

@[simp] theorem State.setPoint_point_same (s : State) (p : Point) (m : MeasuringPoint) :
    (s.setPoint p m).point p = m := Pair.get_set_same _ _ _

theorem State.setPoint_point (s : State) (p q : Point) (m : MeasuringPoint) :
    (s.setPoint p m).point q = if q = p then m else s.point q := Pair.get_set _ _ _ _

@[simp] theorem State.setPoint_index (s : State) (p q : Point) (m : MeasuringPoint) :
    (s.setPoint p m).index q = s.index q := rfl

/-! ### Notices raised and cleared -/

@[simp] theorem State.raise_channels (s : State) (k : EventKind) : (s.raise k).channels = s.channels := rfl
@[simp] theorem State.raise_sampled (s : State) (k : EventKind) : (s.raise k).sampled = s.sampled := rfl
@[simp] theorem State.raise_lostNow (s : State) (k : EventKind) : (s.raise k).lostNow = s.lostNow := rfl
@[simp] theorem State.raise_refok (s : State) (k : EventKind) : (s.raise k).refok = s.refok := rfl
@[simp] theorem State.raise_cu (s : State) (k : EventKind) : (s.raise k).cu = s.cu := rfl
@[simp] theorem State.raise_points (s : State) (k : EventKind) : (s.raise k).points = s.points := rfl
@[simp] theorem State.raise_table (s : State) (k : EventKind) : (s.raise k).table = s.table := rfl
@[simp] theorem State.raise_port (s : State) (k : EventKind) : (s.raise k).port = s.port := rfl
@[simp] theorem State.raise_pointer (s : State) (k : EventKind) : (s.raise k).pointer = s.pointer := rfl
@[simp] theorem State.raise_req (s : State) (k : EventKind) : (s.raise k).req = s.req := rfl
@[simp] theorem State.raise_pending (s : State) (k : EventKind) : (s.raise k).pending = s.pending := rfl

@[simp] theorem State.raise_point (s : State) (k : EventKind) (p : Point) : (s.raise k).point p = s.point p := rfl
@[simp] theorem State.raise_index (s : State) (k : EventKind) (p : Point) : (s.raise k).index p = s.index p := rfl
@[simp] theorem State.raise_routes (s : State) (k : EventKind) : (s.raise k).notices.routes = s.notices.routes := rfl
@[simp] theorem State.raise_flag (s : State) (k j : EventKind) :
    (s.raise k).notices.flags.get j = (s.notices.flags.get j || decide (j = k)) := Kinds.get_ofFn _ _

@[simp] theorem State.raiseIf_channels (s : State) (b : Bool) (k : EventKind) : (s.raiseIf b k).channels = s.channels := by
  cases b <;> rfl
@[simp] theorem State.raiseIf_sampled (s : State) (b : Bool) (k : EventKind) : (s.raiseIf b k).sampled = s.sampled := by
  cases b <;> rfl
@[simp] theorem State.raiseIf_lostNow (s : State) (b : Bool) (k : EventKind) : (s.raiseIf b k).lostNow = s.lostNow := by
  cases b <;> rfl
@[simp] theorem State.raiseIf_refok (s : State) (b : Bool) (k : EventKind) : (s.raiseIf b k).refok = s.refok := by
  cases b <;> rfl
@[simp] theorem State.raiseIf_cu (s : State) (b : Bool) (k : EventKind) : (s.raiseIf b k).cu = s.cu := by
  cases b <;> rfl
@[simp] theorem State.raiseIf_points (s : State) (b : Bool) (k : EventKind) : (s.raiseIf b k).points = s.points := by
  cases b <;> rfl
@[simp] theorem State.raiseIf_table (s : State) (b : Bool) (k : EventKind) : (s.raiseIf b k).table = s.table := by
  cases b <;> rfl
@[simp] theorem State.raiseIf_port (s : State) (b : Bool) (k : EventKind) : (s.raiseIf b k).port = s.port := by
  cases b <;> rfl
@[simp] theorem State.raiseIf_pointer (s : State) (b : Bool) (k : EventKind) : (s.raiseIf b k).pointer = s.pointer := by
  cases b <;> rfl
@[simp] theorem State.raiseIf_req (s : State) (b : Bool) (k : EventKind) : (s.raiseIf b k).req = s.req := by
  cases b <;> rfl
@[simp] theorem State.raiseIf_pending (s : State) (b : Bool) (k : EventKind) : (s.raiseIf b k).pending = s.pending := by
  cases b <;> rfl

@[simp] theorem State.raiseIf_point (s : State) (b : Bool) (k : EventKind) (p : Point) :
    (s.raiseIf b k).point p = s.point p := by
  cases b <;> rfl
@[simp] theorem State.raiseIf_index (s : State) (b : Bool) (k : EventKind) (p : Point) :
    (s.raiseIf b k).index p = s.index p := by
  cases b <;> rfl
@[simp] theorem State.raiseIf_routes (s : State) (b : Bool) (k : EventKind) :
    (s.raiseIf b k).notices.routes = s.notices.routes := by
  cases b <;> rfl
@[simp] theorem State.raiseIf_flag (s : State) (b : Bool) (k j : EventKind) :
    (s.raiseIf b k).notices.flags.get j = (s.notices.flags.get j || (b && decide (j = k))) := by
  cases b <;> simp [State.raiseIf]

@[simp] theorem State.raiseAll_channels (ks : List EventKind) (s : State) : (s.raiseAll ks).channels = s.channels := by
  induction ks generalizing s with
  | nil => rfl
  | cons k ks ih => exact (ih (s.raise k)).trans rfl
@[simp] theorem State.raiseAll_sampled (ks : List EventKind) (s : State) : (s.raiseAll ks).sampled = s.sampled := by
  induction ks generalizing s with
  | nil => rfl
  | cons k ks ih => exact (ih (s.raise k)).trans rfl
@[simp] theorem State.raiseAll_lostNow (ks : List EventKind) (s : State) : (s.raiseAll ks).lostNow = s.lostNow := by
  induction ks generalizing s with
  | nil => rfl
  | cons k ks ih => exact (ih (s.raise k)).trans rfl
@[simp] theorem State.raiseAll_refok (ks : List EventKind) (s : State) : (s.raiseAll ks).refok = s.refok := by
  induction ks generalizing s with
  | nil => rfl
  | cons k ks ih => exact (ih (s.raise k)).trans rfl
@[simp] theorem State.raiseAll_cu (ks : List EventKind) (s : State) : (s.raiseAll ks).cu = s.cu := by
  induction ks generalizing s with
  | nil => rfl
  | cons k ks ih => exact (ih (s.raise k)).trans rfl
@[simp] theorem State.raiseAll_points (ks : List EventKind) (s : State) : (s.raiseAll ks).points = s.points := by
  induction ks generalizing s with
  | nil => rfl
  | cons k ks ih => exact (ih (s.raise k)).trans rfl
@[simp] theorem State.raiseAll_table (ks : List EventKind) (s : State) : (s.raiseAll ks).table = s.table := by
  induction ks generalizing s with
  | nil => rfl
  | cons k ks ih => exact (ih (s.raise k)).trans rfl
@[simp] theorem State.raiseAll_port (ks : List EventKind) (s : State) : (s.raiseAll ks).port = s.port := by
  induction ks generalizing s with
  | nil => rfl
  | cons k ks ih => exact (ih (s.raise k)).trans rfl
@[simp] theorem State.raiseAll_pointer (ks : List EventKind) (s : State) : (s.raiseAll ks).pointer = s.pointer := by
  induction ks generalizing s with
  | nil => rfl
  | cons k ks ih => exact (ih (s.raise k)).trans rfl
@[simp] theorem State.raiseAll_req (ks : List EventKind) (s : State) : (s.raiseAll ks).req = s.req := by
  induction ks generalizing s with
  | nil => rfl
  | cons k ks ih => exact (ih (s.raise k)).trans rfl
@[simp] theorem State.raiseAll_pending (ks : List EventKind) (s : State) : (s.raiseAll ks).pending = s.pending := by
  induction ks generalizing s with
  | nil => rfl
  | cons k ks ih => exact (ih (s.raise k)).trans rfl

@[simp] theorem State.raiseAll_point (ks : List EventKind) (s : State) (p : Point) :
    (s.raiseAll ks).point p = s.point p := by
  simp [State.point]
@[simp] theorem State.raiseAll_index (ks : List EventKind) (s : State) (p : Point) :
    (s.raiseAll ks).index p = s.index p := by
  simp [State.index]
@[simp] theorem State.raiseAll_routes (ks : List EventKind) (s : State) :
    (s.raiseAll ks).notices.routes = s.notices.routes := by
  induction ks generalizing s with
  | nil => rfl
  | cons k ks ih => exact (ih (s.raise k)).trans rfl
@[simp] theorem State.raiseAll_flag (ks : List EventKind) (s : State) (j : EventKind) :
    (s.raiseAll ks).notices.flags.get j = (s.notices.flags.get j || decide (j ∈ ks)) := by
  induction ks generalizing s with
  | nil => simp [State.raiseAll]
  | cons k ks ih => simp [State.raiseAll, ih, Bool.or_assoc]

@[simp] theorem State.clearNotice_channels (s : State) (k : EventKind) : (s.clearNotice k).channels = s.channels := rfl
@[simp] theorem State.clearNotice_sampled (s : State) (k : EventKind) : (s.clearNotice k).sampled = s.sampled := rfl
@[simp] theorem State.clearNotice_lostNow (s : State) (k : EventKind) : (s.clearNotice k).lostNow = s.lostNow := rfl
@[simp] theorem State.clearNotice_refok (s : State) (k : EventKind) : (s.clearNotice k).refok = s.refok := rfl
@[simp] theorem State.clearNotice_cu (s : State) (k : EventKind) : (s.clearNotice k).cu = s.cu := rfl
@[simp] theorem State.clearNotice_points (s : State) (k : EventKind) : (s.clearNotice k).points = s.points := rfl
@[simp] theorem State.clearNotice_table (s : State) (k : EventKind) : (s.clearNotice k).table = s.table := rfl
@[simp] theorem State.clearNotice_port (s : State) (k : EventKind) : (s.clearNotice k).port = s.port := rfl
@[simp] theorem State.clearNotice_pointer (s : State) (k : EventKind) : (s.clearNotice k).pointer = s.pointer := rfl
@[simp] theorem State.clearNotice_req (s : State) (k : EventKind) : (s.clearNotice k).req = s.req := rfl
@[simp] theorem State.clearNotice_pending (s : State) (k : EventKind) : (s.clearNotice k).pending = s.pending := rfl

@[simp] theorem State.clearNotice_routes (s : State) (k : EventKind) :
    (s.clearNotice k).notices.routes = s.notices.routes := rfl
@[simp] theorem State.clearNotice_flag (s : State) (k j : EventKind) :
    (s.clearNotice k).notices.flags.get j = (s.notices.flags.get j && decide (j ≠ k)) := Kinds.get_ofFn _ _

/-! ### A point taken from a result -/

@[simp] theorem State.takePoint_channels (s : State) (p : Point) (r : PointResult) : (s.takePoint p r).channels = s.channels := by
  simp [State.takePoint]
@[simp] theorem State.takePoint_sampled (s : State) (p : Point) (r : PointResult) : (s.takePoint p r).sampled = s.sampled := by
  simp [State.takePoint]
@[simp] theorem State.takePoint_lostNow (s : State) (p : Point) (r : PointResult) : (s.takePoint p r).lostNow = s.lostNow := by
  simp [State.takePoint]
@[simp] theorem State.takePoint_refok (s : State) (p : Point) (r : PointResult) : (s.takePoint p r).refok = s.refok := by
  simp [State.takePoint]
@[simp] theorem State.takePoint_cu (s : State) (p : Point) (r : PointResult) : (s.takePoint p r).cu = s.cu := by
  simp [State.takePoint]
@[simp] theorem State.takePoint_table (s : State) (p : Point) (r : PointResult) : (s.takePoint p r).table = s.table := by
  simp [State.takePoint]
@[simp] theorem State.takePoint_port (s : State) (p : Point) (r : PointResult) : (s.takePoint p r).port = s.port := by
  simp [State.takePoint]
@[simp] theorem State.takePoint_pointer (s : State) (p : Point) (r : PointResult) : (s.takePoint p r).pointer = s.pointer := by
  simp [State.takePoint]
@[simp] theorem State.takePoint_req (s : State) (p : Point) (r : PointResult) : (s.takePoint p r).req = s.req := by
  simp [State.takePoint]
@[simp] theorem State.takePoint_pending (s : State) (p : Point) (r : PointResult) : (s.takePoint p r).pending = s.pending := by
  simp [State.takePoint]

@[simp] theorem State.takePoint_point_same (s : State) (p : Point) (r : PointResult) :
    (s.takePoint p r).point p = r.point := by
  simp [State.takePoint]

theorem State.takePoint_point (s : State) (p q : Point) (r : PointResult) :
    (s.takePoint p r).point q = if q = p then r.point else s.point q := by
  simp [State.takePoint, State.setPoint_point]

@[simp] theorem State.takePoint_index (s : State) (p q : Point) (r : PointResult) :
    (s.takePoint p r).index q = s.index q := by
  simp [State.takePoint]

@[simp] theorem State.takePoint_routes (s : State) (p : Point) (r : PointResult) :
    (s.takePoint p r).notices.routes = s.notices.routes := by
  simp [State.takePoint]

@[simp] theorem State.takePoint_flag (s : State) (p : Point) (r : PointResult) (k : EventKind) :
    (s.takePoint p r).notices.flags.get k = (s.notices.flags.get k || decide (k ∈ r.events)) := by
  simp [State.takePoint]

/-! ### The request port -/

@[simp] theorem State.shiftOut_channels (s : State) (n : Nat) : (s.shiftOut n).channels = s.channels := rfl
@[simp] theorem State.shiftOut_sampled (s : State) (n : Nat) : (s.shiftOut n).sampled = s.sampled := rfl
@[simp] theorem State.shiftOut_lostNow (s : State) (n : Nat) : (s.shiftOut n).lostNow = s.lostNow := rfl
@[simp] theorem State.shiftOut_refok (s : State) (n : Nat) : (s.shiftOut n).refok = s.refok := rfl
@[simp] theorem State.shiftOut_cu (s : State) (n : Nat) : (s.shiftOut n).cu = s.cu := rfl
@[simp] theorem State.shiftOut_points (s : State) (n : Nat) : (s.shiftOut n).points = s.points := rfl
@[simp] theorem State.shiftOut_table (s : State) (n : Nat) : (s.shiftOut n).table = s.table := rfl
@[simp] theorem State.shiftOut_port (s : State) (n : Nat) : (s.shiftOut n).port = s.port := rfl
@[simp] theorem State.shiftOut_pointer (s : State) (n : Nat) : (s.shiftOut n).pointer = s.pointer := rfl
@[simp] theorem State.shiftOut_notices (s : State) (n : Nat) : (s.shiftOut n).notices = s.notices := rfl
@[simp] theorem State.shiftOut_pending (s : State) (n : Nat) : (s.shiftOut n).pending = s.pending := rfl

@[simp] theorem State.shiftOut_link (s : State) (n : Nat) : (s.shiftOut n).req.link = s.req.link := rfl
@[simp] theorem State.shiftOut_slot (s : State) (n : Nat) : (s.shiftOut n).req.slot = s.req.slot := rfl
@[simp] theorem State.shiftOut_discarded (s : State) (n : Nat) : (s.shiftOut n).req.discarded = s.req.discarded := rfl
@[simp] theorem State.shiftOut_discardedCount (s : State) (n : Nat) : (s.shiftOut n).req.discardedCount = s.req.discardedCount := rfl
@[simp] theorem State.shiftOut_malformedCount (s : State) (n : Nat) : (s.shiftOut n).req.malformedCount = s.req.malformedCount := rfl
@[simp] theorem State.shiftOut_executor (s : State) (n : Nat) : (s.shiftOut n).req.executor = s.req.executor := rfl
@[simp] theorem State.shiftOut_transfer (s : State) (n : Nat) : (s.shiftOut n).req.transfer = .high := rfl
@[simp] theorem State.shiftOut_sdo (s : State) (n : Nat) : (s.shiftOut n).req.sdo = s.req.plainOut n := rfl
@[simp] theorem State.shiftOut_ignoredCount (s : State) (n : Nat) : (s.shiftOut n).req.ignoredCount = s.req.ignoredCount := rfl

@[simp] theorem State.shiftOut_point (s : State) (n : Nat) (p : Point) : (s.shiftOut n).point p = s.point p := rfl
@[simp] theorem State.shiftOut_index (s : State) (n : Nat) (p : Point) : (s.shiftOut n).index p = s.index p := rfl

@[simp] theorem State.place_channels (s : State) (r : Response) : (s.place r).channels = s.channels := rfl
@[simp] theorem State.place_sampled (s : State) (r : Response) : (s.place r).sampled = s.sampled := rfl
@[simp] theorem State.place_lostNow (s : State) (r : Response) : (s.place r).lostNow = s.lostNow := rfl
@[simp] theorem State.place_refok (s : State) (r : Response) : (s.place r).refok = s.refok := rfl
@[simp] theorem State.place_cu (s : State) (r : Response) : (s.place r).cu = s.cu := rfl
@[simp] theorem State.place_points (s : State) (r : Response) : (s.place r).points = s.points := rfl
@[simp] theorem State.place_table (s : State) (r : Response) : (s.place r).table = s.table := rfl
@[simp] theorem State.place_port (s : State) (r : Response) : (s.place r).port = s.port := rfl
@[simp] theorem State.place_pointer (s : State) (r : Response) : (s.place r).pointer = s.pointer := rfl
@[simp] theorem State.place_pending (s : State) (r : Response) : (s.place r).pending = s.pending := rfl

@[simp] theorem State.place_discarded (s : State) (r : Response) : (s.place r).req.discarded = s.req.discarded := rfl
@[simp] theorem State.place_discardedCount (s : State) (r : Response) : (s.place r).req.discardedCount = s.req.discardedCount := rfl
@[simp] theorem State.place_malformedCount (s : State) (r : Response) : (s.place r).req.malformedCount = s.req.malformedCount := rfl
@[simp] theorem State.place_sdo (s : State) (r : Response) : (s.place r).req.sdo = s.req.sdo := rfl
@[simp] theorem State.place_transfer (s : State) (r : Response) : (s.place r).req.transfer = s.req.transfer := rfl
@[simp] theorem State.place_ignoredCount (s : State) (r : Response) : (s.place r).req.ignoredCount = s.req.ignoredCount := rfl

@[simp] theorem State.place_link (s : State) (r : Response) : (s.place r).req.link = .ready := rfl
@[simp] theorem State.place_slot (s : State) (r : Response) : (s.place r).req.slot = some r := rfl
@[simp] theorem State.place_executor (s : State) (r : Response) : (s.place r).req.executor = .free := rfl
@[simp] theorem State.place_routes (s : State) (r : Response) : (s.place r).notices.routes = s.notices.routes := rfl
@[simp] theorem State.place_flag (s : State) (r : Response) (k : EventKind) :
    (s.place r).notices.flags.get k = (s.notices.flags.get k || decide (k = .responseReady)) := Kinds.get_ofFn _ _
@[simp] theorem State.place_point (s : State) (r : Response) (p : Point) : (s.place r).point p = s.point p := rfl
@[simp] theorem State.place_index (s : State) (r : Response) (p : Point) : (s.place r).index p = s.index p := rfl

@[simp] theorem State.discard_channels (s : State) : (s.discard).channels = s.channels := rfl
@[simp] theorem State.discard_sampled (s : State) : (s.discard).sampled = s.sampled := rfl
@[simp] theorem State.discard_lostNow (s : State) : (s.discard).lostNow = s.lostNow := rfl
@[simp] theorem State.discard_refok (s : State) : (s.discard).refok = s.refok := rfl
@[simp] theorem State.discard_cu (s : State) : (s.discard).cu = s.cu := rfl
@[simp] theorem State.discard_points (s : State) : (s.discard).points = s.points := rfl
@[simp] theorem State.discard_table (s : State) : (s.discard).table = s.table := rfl
@[simp] theorem State.discard_port (s : State) : (s.discard).port = s.port := rfl
@[simp] theorem State.discard_pointer (s : State) : (s.discard).pointer = s.pointer := rfl
@[simp] theorem State.discard_notices (s : State) : (s.discard).notices = s.notices := rfl
@[simp] theorem State.discard_pending (s : State) : (s.discard).pending = s.pending := rfl

@[simp] theorem State.discard_link (s : State) : (s.discard).req.link = s.req.link := rfl
@[simp] theorem State.discard_slot (s : State) : (s.discard).req.slot = s.req.slot := rfl
@[simp] theorem State.discard_malformedCount (s : State) : (s.discard).req.malformedCount = s.req.malformedCount := rfl
@[simp] theorem State.discard_executor (s : State) : (s.discard).req.executor = s.req.executor := rfl
@[simp] theorem State.discard_sdo (s : State) : (s.discard).req.sdo = s.req.sdo := rfl
@[simp] theorem State.discard_transfer (s : State) : (s.discard).req.transfer = s.req.transfer := rfl
@[simp] theorem State.discard_ignoredCount (s : State) : (s.discard).req.ignoredCount = s.req.ignoredCount := rfl

@[simp] theorem State.discard_discarded (s : State) : s.discard.req.discarded = true := rfl
@[simp] theorem State.discard_discardedCount (s : State) :
    s.discard.req.discardedCount = bump16 s.req.discardedCount := rfl

@[simp] theorem State.discardMalformed_channels (s : State) : (s.discardMalformed).channels = s.channels := rfl
@[simp] theorem State.discardMalformed_sampled (s : State) : (s.discardMalformed).sampled = s.sampled := rfl
@[simp] theorem State.discardMalformed_lostNow (s : State) : (s.discardMalformed).lostNow = s.lostNow := rfl
@[simp] theorem State.discardMalformed_refok (s : State) : (s.discardMalformed).refok = s.refok := rfl
@[simp] theorem State.discardMalformed_cu (s : State) : (s.discardMalformed).cu = s.cu := rfl
@[simp] theorem State.discardMalformed_points (s : State) : (s.discardMalformed).points = s.points := rfl
@[simp] theorem State.discardMalformed_table (s : State) : (s.discardMalformed).table = s.table := rfl
@[simp] theorem State.discardMalformed_port (s : State) : (s.discardMalformed).port = s.port := rfl
@[simp] theorem State.discardMalformed_pointer (s : State) : (s.discardMalformed).pointer = s.pointer := rfl
@[simp] theorem State.discardMalformed_notices (s : State) : (s.discardMalformed).notices = s.notices := rfl
@[simp] theorem State.discardMalformed_pending (s : State) : (s.discardMalformed).pending = s.pending := rfl

@[simp] theorem State.discardMalformed_link (s : State) : (s.discardMalformed).req.link = s.req.link := rfl
@[simp] theorem State.discardMalformed_slot (s : State) : (s.discardMalformed).req.slot = s.req.slot := rfl
@[simp] theorem State.discardMalformed_discardedCount (s : State) : (s.discardMalformed).req.discardedCount = s.req.discardedCount := rfl
@[simp] theorem State.discardMalformed_executor (s : State) : (s.discardMalformed).req.executor = s.req.executor := rfl
@[simp] theorem State.discardMalformed_sdo (s : State) : (s.discardMalformed).req.sdo = s.req.sdo := rfl
@[simp] theorem State.discardMalformed_transfer (s : State) : (s.discardMalformed).req.transfer = s.req.transfer := rfl
@[simp] theorem State.discardMalformed_ignoredCount (s : State) : (s.discardMalformed).req.ignoredCount = s.req.ignoredCount := rfl

@[simp] theorem State.discardMalformed_discarded (s : State) : s.discardMalformed.req.discarded = true := rfl
@[simp] theorem State.discardMalformed_malformedCount (s : State) :
    s.discardMalformed.req.malformedCount = bump16 s.req.malformedCount := rfl

@[simp] theorem State.endIgnored_channels (s : State) : s.endIgnored.channels = s.channels := rfl
@[simp] theorem State.endIgnored_sampled (s : State) : s.endIgnored.sampled = s.sampled := rfl
@[simp] theorem State.endIgnored_lostNow (s : State) : s.endIgnored.lostNow = s.lostNow := rfl
@[simp] theorem State.endIgnored_refok (s : State) : s.endIgnored.refok = s.refok := rfl
@[simp] theorem State.endIgnored_cu (s : State) : s.endIgnored.cu = s.cu := rfl
@[simp] theorem State.endIgnored_points (s : State) : s.endIgnored.points = s.points := rfl
@[simp] theorem State.endIgnored_table (s : State) : s.endIgnored.table = s.table := rfl
@[simp] theorem State.endIgnored_port (s : State) : s.endIgnored.port = s.port := rfl
@[simp] theorem State.endIgnored_pointer (s : State) : s.endIgnored.pointer = s.pointer := rfl
@[simp] theorem State.endIgnored_notices (s : State) : s.endIgnored.notices = s.notices := rfl
@[simp] theorem State.endIgnored_pending (s : State) : s.endIgnored.pending = s.pending := rfl

@[simp] theorem State.endIgnored_link (s : State) : s.endIgnored.req.link = s.req.link := rfl
@[simp] theorem State.endIgnored_slot (s : State) : s.endIgnored.req.slot = s.req.slot := rfl
@[simp] theorem State.endIgnored_discarded (s : State) : s.endIgnored.req.discarded = s.req.discarded := rfl
@[simp] theorem State.endIgnored_discardedCount (s : State) : s.endIgnored.req.discardedCount = s.req.discardedCount := rfl
@[simp] theorem State.endIgnored_malformedCount (s : State) : s.endIgnored.req.malformedCount = s.req.malformedCount := rfl
@[simp] theorem State.endIgnored_executor (s : State) : s.endIgnored.req.executor = s.req.executor := rfl
@[simp] theorem State.endIgnored_transfer (s : State) : s.endIgnored.req.transfer = .high := rfl
@[simp] theorem State.endIgnored_sdo (s : State) : s.endIgnored.req.sdo = (Config.ignoredSdo s.req.ignoredCount).getD [] := rfl
@[simp] theorem State.endIgnored_ignoredCount (s : State) :
    s.endIgnored.req.ignoredCount = s.req.ignoredCount + 1 := rfl

/-- The fall of CS_N, the running on of SCK and the decision of a FETCH change the request port alone (R184, R185, R191). -/
theorem State.beginTransfer_eq (s : State) : s.beginTransfer = { s with req := s.beginTransfer.req } := by
  unfold State.beginTransfer
  split <;> rfl

theorem State.runOn_eq (s : State) (sdi : List Bool) : s.runOn sdi = { s with req := (s.runOn sdi).req } := by
  unfold State.runOn
  split <;> rfl

theorem State.decideFetch_eq (s : State) : s.decideFetch = { s with req := s.decideFetch.req } := by
  unfold State.decideFetch
  split <;> rfl

/-! ### The table -/

@[simp] theorem State.writeTable_channels (s : State) (p : Point) (n : Nat) (v : Slot) (idx : List IndexItem) : (s.writeTable p n v idx).channels = s.channels := rfl
@[simp] theorem State.writeTable_sampled (s : State) (p : Point) (n : Nat) (v : Slot) (idx : List IndexItem) : (s.writeTable p n v idx).sampled = s.sampled := rfl
@[simp] theorem State.writeTable_lostNow (s : State) (p : Point) (n : Nat) (v : Slot) (idx : List IndexItem) : (s.writeTable p n v idx).lostNow = s.lostNow := rfl
@[simp] theorem State.writeTable_refok (s : State) (p : Point) (n : Nat) (v : Slot) (idx : List IndexItem) : (s.writeTable p n v idx).refok = s.refok := rfl
@[simp] theorem State.writeTable_cu (s : State) (p : Point) (n : Nat) (v : Slot) (idx : List IndexItem) : (s.writeTable p n v idx).cu = s.cu := rfl
@[simp] theorem State.writeTable_points (s : State) (p : Point) (n : Nat) (v : Slot) (idx : List IndexItem) : (s.writeTable p n v idx).points = s.points := rfl
@[simp] theorem State.writeTable_port (s : State) (p : Point) (n : Nat) (v : Slot) (idx : List IndexItem) : (s.writeTable p n v idx).port = s.port := rfl
@[simp] theorem State.writeTable_pointer (s : State) (p : Point) (n : Nat) (v : Slot) (idx : List IndexItem) : (s.writeTable p n v idx).pointer = s.pointer := rfl
@[simp] theorem State.writeTable_notices (s : State) (p : Point) (n : Nat) (v : Slot) (idx : List IndexItem) : (s.writeTable p n v idx).notices = s.notices := rfl
@[simp] theorem State.writeTable_req (s : State) (p : Point) (n : Nat) (v : Slot) (idx : List IndexItem) : (s.writeTable p n v idx).req = s.req := rfl
@[simp] theorem State.writeTable_pending (s : State) (p : Point) (n : Nat) (v : Slot) (idx : List IndexItem) : (s.writeTable p n v idx).pending = s.pending := rfl

@[simp] theorem State.writeTable_point (s : State) (p q : Point) (n : Nat) (v : Slot) (idx : List IndexItem) :
    (s.writeTable p n v idx).point q = s.point q := rfl
@[simp] theorem State.writeTable_slots (s : State) (p : Point) (n : Nat) (v : Slot) (idx : List IndexItem) :
    (s.writeTable p n v idx).table.slots = slotSet s.table.slots n v := rfl
@[simp] theorem State.writeTable_index_same (s : State) (p : Point) (n : Nat) (v : Slot) (idx : List IndexItem) :
    (s.writeTable p n v idx).index p = idx := Pair.get_set_same _ _ _
theorem State.writeTable_index (s : State) (p q : Point) (n : Nat) (v : Slot) (idx : List IndexItem) :
    (s.writeTable p n v idx).index q = if q = p then idx else s.index q := Pair.get_set _ _ _ _

@[simp] theorem State.handEdit_channels (s : State) (p : Point) (key : Nat) (b a : Option IndexItem) : (s.handEdit p key b a).channels = s.channels := by
  simp [State.handEdit]
@[simp] theorem State.handEdit_sampled (s : State) (p : Point) (key : Nat) (b a : Option IndexItem) : (s.handEdit p key b a).sampled = s.sampled := by
  simp [State.handEdit]
@[simp] theorem State.handEdit_lostNow (s : State) (p : Point) (key : Nat) (b a : Option IndexItem) : (s.handEdit p key b a).lostNow = s.lostNow := by
  simp [State.handEdit]
@[simp] theorem State.handEdit_refok (s : State) (p : Point) (key : Nat) (b a : Option IndexItem) : (s.handEdit p key b a).refok = s.refok := by
  simp [State.handEdit]
@[simp] theorem State.handEdit_cu (s : State) (p : Point) (key : Nat) (b a : Option IndexItem) : (s.handEdit p key b a).cu = s.cu := by
  simp [State.handEdit]
@[simp] theorem State.handEdit_table (s : State) (p : Point) (key : Nat) (b a : Option IndexItem) : (s.handEdit p key b a).table = s.table := by
  simp [State.handEdit]
@[simp] theorem State.handEdit_port (s : State) (p : Point) (key : Nat) (b a : Option IndexItem) : (s.handEdit p key b a).port = s.port := by
  simp [State.handEdit]
@[simp] theorem State.handEdit_pointer (s : State) (p : Point) (key : Nat) (b a : Option IndexItem) : (s.handEdit p key b a).pointer = s.pointer := by
  simp [State.handEdit]
@[simp] theorem State.handEdit_req (s : State) (p : Point) (key : Nat) (b a : Option IndexItem) : (s.handEdit p key b a).req = s.req := by
  simp [State.handEdit]
@[simp] theorem State.handEdit_pending (s : State) (p : Point) (key : Nat) (b a : Option IndexItem) : (s.handEdit p key b a).pending = s.pending := by
  simp [State.handEdit]

@[simp] theorem State.handEdit_index (s : State) (p q : Point) (key : Nat) (b a : Option IndexItem) :
    (s.handEdit p key b a).index q = s.index q := by
  simp [State.handEdit]

end Sys2Proof.Machine
end

