-- ==== Sys2Proof/Laws/Table.lean ====
section
/-! SUPPORT. The slot array and the indexes: a read after a write, the canonical form kept by every write, the lowest FREE
slot, and what insertion, replacement and removal do to an index. -/

namespace Sys2Proof.Machine

/-! ### Reading a slot after writing one -/

@[simp] theorem slotGet_nil (n : Nat) : slotGet [] n = Slot.blank := rfl

theorem slotGet_cons (k : Nat) (v : Slot) (t : List (Nat × Slot)) (n : Nat) :
    slotGet ((k, v) :: t) n = if n = k then v else slotGet t n := rfl

/-- A number below every listed one is unlisted. -/
theorem slotGet_of_forall_lt {l : List (Nat × Slot)} {n : Nat} (h : ∀ e ∈ l, n < e.1) :
    slotGet l n = Slot.blank := by
  induction l with
  | nil => rfl
  | cons e t ih =>
    obtain ⟨k, v⟩ := e
    have hk : n < k := h (k, v) (by simp)
    rw [slotGet_cons, if_neg (by omega)]
    exact ih fun e he => h e (by simp [he])

/-- A slot that is not blank is listed. -/
theorem mem_of_slotGet_ne {l : List (Nat × Slot)} {n : Nat} (h : slotGet l n ≠ Slot.blank) :
    (n, slotGet l n) ∈ l := by
  induction l with
  | nil => exact absurd rfl h
  | cons e t ih =>
    obtain ⟨k, v⟩ := e
    rw [slotGet_cons] at h ⊢
    split at h
    · next hk => subst hk; simp
    · next hk => simp [hk, ih h]

/-- A LIVE slot is listed. -/
theorem mem_of_entry_eq_some {l : List (Nat × Slot)} {n : Nat} {e : Entry} (h : (slotGet l n).entry = some e) :
    (n, slotGet l n) ∈ l := by
  apply mem_of_slotGet_ne
  intro hb
  rw [hb] at h
  exact absurd h (by simp [Slot.blank])

/-- A listed slot reads as listed. -/
theorem slotGet_of_mem {l : List (Nat × Slot)} (hr : l.Pairwise fun a b => a.1 < b.1) {n : Nat} {v : Slot}
    (h : (n, v) ∈ l) : slotGet l n = v := by
  induction l with
  | nil => simp at h
  | cons e t ih =>
    obtain ⟨k, w⟩ := e
    rw [List.pairwise_cons] at hr
    rw [slotGet_cons]
    rcases List.mem_cons.1 h with h | h
    · cases h; simp
    · have hk : k < n := hr.1 _ h
      rw [if_neg (by omega)]
      exact ih hr.2 h

theorem mem_slotCons {n : Nat} {v : Slot} {t : List (Nat × Slot)} {e : Nat × Slot} (h : e ∈ slotCons n v t) :
    (e = (n, v) ∧ v ≠ Slot.blank) ∨ e ∈ t := by
  unfold slotCons at h
  split at h
  · exact .inr h
  · next hv =>
    rcases List.mem_cons.1 h with h | h
    · exact .inl ⟨h, hv⟩
    · exact .inr h

/-- A write lists nothing but the slot written and what was listed. -/
theorem mem_slotSet {l : List (Nat × Slot)} {n : Nat} {v : Slot} {e : Nat × Slot} (h : e ∈ slotSet l n v) :
    (e = (n, v) ∧ v ≠ Slot.blank) ∨ e ∈ l := by
  induction l with
  | nil => exact mem_slotCons h
  | cons a t ih =>
    obtain ⟨k, w⟩ := a
    unfold slotSet at h
    split at h
    · exact mem_slotCons h
    · split at h
      · rcases mem_slotCons h with h | h
        · exact .inl h
        · exact .inr (by simp [h])
      · rcases List.mem_cons.1 h with h | h
        · exact .inr (by simp [h])
        · rcases ih h with h | h
          · exact .inl h
          · exact .inr (by simp [h])

theorem slotGet_slotCons {t : List (Nat × Slot)} {n : Nat} {v : Slot} (ht : ∀ e ∈ t, n < e.1) (m : Nat) :
    slotGet (slotCons n v t) m = if m = n then v else slotGet t m := by
  unfold slotCons
  split
  · next hv =>
    split
    · next hm => rw [hm, hv]; exact slotGet_of_forall_lt ht
    · rfl
  · rfl

/-- A slot read after a write: the slot written where it was written, the old one elsewhere. -/
theorem slotGet_slotSet {l : List (Nat × Slot)} (hr : l.Pairwise fun a b => a.1 < b.1) (n : Nat) (v : Slot) (m : Nat) :
    slotGet (slotSet l n v) m = if m = n then v else slotGet l m := by
  induction l with
  | nil => exact slotGet_slotCons (by simp) m
  | cons a t ih =>
    obtain ⟨k, w⟩ := a
    rw [List.pairwise_cons] at hr
    unfold slotSet
    split
    · next hk =>
      refine slotGet_slotCons ?_ m
      intro e he
      rcases List.mem_cons.1 he with he | he
      · rw [he]; exact hk
      · exact lt_trans hk (hr.1 e he)
    · split
      · next hk =>
        subst hk
        rw [slotGet_slotCons hr.1, slotGet_cons]
        split <;> rfl
      · next hk1 hk2 =>
        rw [slotGet_cons, slotGet_cons, ih hr.2]
        by_cases hm : m = k
        · have : m ≠ n := by omega
          simp [hm, Ne.symm hk2]
        · simp [hm]

theorem slotSet_rising {l : List (Nat × Slot)} (hr : l.Pairwise fun a b => a.1 < b.1) (n : Nat) (v : Slot) :
    (slotSet l n v).Pairwise fun a b => a.1 < b.1 := by
  induction l with
  | nil => unfold slotSet slotCons; split <;> simp
  | cons a t ih =>
    obtain ⟨k, w⟩ := a
    have hr' := List.pairwise_cons.1 hr
    have hcons : ∀ u : List (Nat × Slot), (∀ e ∈ u, n < e.1) → (u.Pairwise fun a b => a.1 < b.1) →
        (slotCons n v u).Pairwise fun a b => a.1 < b.1 := by
      intro u hu hp
      unfold slotCons
      split
      · exact hp
      · exact List.pairwise_cons.2 ⟨hu, hp⟩
    unfold slotSet
    split
    · next hk =>
      refine hcons _ ?_ hr
      intro e he
      rcases List.mem_cons.1 he with he | he
      · rw [he]; exact hk
      · exact lt_trans hk (hr'.1 e he)
    · split
      · next hk => subst hk; exact hcons _ hr'.1 hr'.2
      · next hk1 hk2 =>
        refine List.pairwise_cons.2 ⟨?_, ih hr'.2⟩
        intro e he
        rcases mem_slotSet he with ⟨he, -⟩ | he
        · rw [he]; show k < n; omega
        · exact hr'.1 e he

/-- Every write of a slot below 2048 with a revision of 16 bits keeps the canonical form. -/
theorem SlotsOk.set {l : List (Nat × Slot)} (h : SlotsOk l) {n : Nat} {v : Slot} (hn : n < Config.slotCount)
    (hv : v.revision ≤ 65535) : SlotsOk (slotSet l n v) where
  rising := slotSet_rising h.rising n v
  number_range := by
    intro e he
    rcases mem_slotSet he with ⟨he, -⟩ | he
    · rw [he]; exact hn
    · exact h.number_range e he
  no_blank := by
    intro e he
    rcases mem_slotSet he with ⟨he, hb⟩ | he
    · rw [he]; exact hb
    · exact h.no_blank e he
  revision_range := by
    intro e he
    rcases mem_slotSet he with ⟨he, -⟩ | he
    · rw [he]; exact hv
    · exact h.revision_range e he

theorem slotsOk_nil : SlotsOk [] where
  rising := .nil
  number_range := by simp
  no_blank := by simp
  revision_range := by simp

/-- A raised revision has 16 bits (R72). -/
theorem nextRevision_le (n : Nat) : nextRevision n ≤ 65535 := by
  unfold nextRevision; split <;> omega

/-- A raised revision differs from the one before (R72). -/
theorem nextRevision_ne {n : Nat} : nextRevision n ≠ n := by
  unfold nextRevision; split <;> omega

/-! ### Every operation on the table keeps the canonical form -/

theorem LineTable.slot_setSlot {t : LineTable} (h : SlotsOk t.slots) (n : Nat) (v : Slot) (m : Nat) :
    (t.setSlot n v).slot m = if m = n then v else t.slot m := slotGet_slotSet h.rising n v m

@[simp] theorem LineTable.setSlot_index (t : LineTable) (n : Nat) (v : Slot) : (t.setSlot n v).index = t.index := rfl

@[simp] theorem LineTable.setIndex_slots (t : LineTable) (p : Point) (idx : List IndexItem) :
    (t.setIndex p idx).slots = t.slots := rfl

@[simp] theorem LineTable.setIndex_slot (t : LineTable) (p : Point) (idx : List IndexItem) (n : Nat) :
    (t.setIndex p idx).slot n = t.slot n := rfl

theorem LineTable.setIndex_index (t : LineTable) (p q : Point) (idx : List IndexItem) :
    (t.setIndex p idx).index.get q = if q = p then idx else t.index.get q := Pair.get_set _ _ _ _

/-- RESTART keeps the canonical form (R99). -/
theorem SlotsOk.restart {l : List (Nat × Slot)} (h : SlotsOk l) : SlotsOk (restartSlots l) := by
  have hmem : ∀ e ∈ restartSlots l, ∃ a ∈ l, e.1 = a.1 ∧ (e.2.revision = a.2.revision ∨
      e.2.revision = nextRevision a.2.revision) ∧ e.2 ≠ Slot.blank := by
    intro e he
    simp only [restartSlots, List.mem_filter, List.mem_map, decide_eq_true_eq] at he
    obtain ⟨⟨a, ha, hae⟩, hb⟩ := he
    refine ⟨a, ha, ?_⟩
    split at hae <;> subst hae <;> simp [hb]
  constructor
  · apply List.Pairwise.filter
    rw [List.pairwise_map]
    refine h.rising.imp ?_
    intro a b hab
    by_cases ha : a.2.entry.isSome = true <;> by_cases hb : b.2.entry.isSome = true <;> simp [ha, hb, hab]
  · intro e he
    obtain ⟨a, ha, h1, -, -⟩ := hmem e he
    rw [h1]; exact h.number_range a ha
  · intro e he
    obtain ⟨a, ha, -, -, h3⟩ := hmem e he
    exact h3
  · intro e he
    obtain ⟨a, ha, -, h2 | h2, -⟩ := hmem e he
    · rw [h2]; exact h.revision_range a ha
    · rw [h2]; exact nextRevision_le _

/-- After RESTART no slot is LIVE (R99). -/
theorem restartSlots_entry (l : List (Nat × Slot)) (n : Nat) : (slotGet (restartSlots l) n).entry = none := by
  cases hc : (slotGet (restartSlots l) n).entry with
  | none => rfl
  | some e =>
    have hm := mem_of_entry_eq_some hc
    generalize slotGet (restartSlots l) n = v at hc hm
    simp only [restartSlots, List.mem_filter, List.mem_map] at hm
    obtain ⟨⟨a, -, ha⟩, -⟩ := hm
    split at ha
    · rw [Prod.mk.injEq] at ha
      rw [← ha.2] at hc
      simp at hc
    · next hs =>
      rw [ha, hc] at hs
      exact absurd rfl hs

/-! ### The lowest FREE slot (R86) -/

theorem lowestFreeFrom_some {slots : List (Nat × Slot)} {fuel n k : Nat} (h : lowestFreeFrom slots fuel n = some k) :
    n ≤ k ∧ k < n + fuel ∧ (slotGet slots k).entry = none ∧ ∀ m, n ≤ m → m < k → (slotGet slots m).entry ≠ none := by
  induction fuel generalizing n with
  | zero => simp [lowestFreeFrom] at h
  | succ fuel ih =>
    unfold lowestFreeFrom at h
    split at h
    · next hf =>
      cases h
      exact ⟨le_refl _, by omega, by simpa using hf, by omega⟩
    · next hf =>
      obtain ⟨h1, h2, h3, h4⟩ := ih h
      refine ⟨by omega, by omega, h3, ?_⟩
      intro m hm hk
      by_cases hmn : m = n
      · subst hmn; simpa using hf
      · exact h4 m (by omega) hk

/-- The lowest FREE slot is FREE, below 2048, and every slot below it is LIVE. -/
theorem LineTable.lowestFree_some {t : LineTable} {n : Nat} (h : t.lowestFree = some n) :
    n < Config.slotCount ∧ (t.slot n).entry = none ∧ ∀ m, m < n → (t.slot m).entry ≠ none := by
  obtain ⟨-, h2, h3, h4⟩ := lowestFreeFrom_some h
  exact ⟨by simpa using h2, h3, fun m hm => h4 m (Nat.zero_le _) hm⟩

/-! ### Indexes -/

theorem findKey_some {idx : List IndexItem} {k : Nat} {it : IndexItem} (h : findKey idx k = some it) :
    it ∈ idx ∧ it.key = k := by
  refine ⟨List.mem_of_find?_eq_some h, ?_⟩
  simpa using List.find?_some h

theorem findKey_none {idx : List IndexItem} {k : Nat} (h : findKey idx k = none) : ∀ it ∈ idx, it.key ≠ k := by
  intro it hit
  simpa using List.find?_eq_none.1 h it hit

theorem LineTable.findEntry_some {t : LineTable} {p : Point} {k : Nat} {l : LiveEntry}
    (h : t.findEntry p k = some l) :
    l.item ∈ t.index.get p ∧ l.item.key = k ∧ (t.slot l.item.slot).entry = some l.entry := by
  unfold LineTable.findEntry at h
  cases hf : findKey (t.index.get p) k with
  | none => simp [hf] at h
  | some it =>
    obtain ⟨hm, hk⟩ := findKey_some hf
    rw [hf, Option.bind_some, LineTable.entryOf, Option.map_eq_some_iff] at h
    obtain ⟨e, he, hl⟩ := h
    subst hl
    exact ⟨hm, hk, he⟩

theorem nextItem_some {idx : List IndexItem} {k last : Nat} {it : IndexItem} (h : nextItem idx k last = some it) :
    it ∈ idx ∧ k ≤ it.key ∧ it.key ≤ last := by
  refine ⟨List.mem_of_find?_eq_some h, ?_⟩
  simpa using List.find?_some h

theorem mem_insertItem {it a : IndexItem} {idx : List IndexItem} : a ∈ insertItem it idx ↔ a = it ∨ a ∈ idx := by
  induction idx with
  | nil => simp [insertItem]
  | cons h t ih =>
    unfold insertItem
    split
    · simp
    · simp only [List.mem_cons, ih]
      tauto

theorem mem_removeKey {k : Nat} {a : IndexItem} {idx : List IndexItem} : a ∈ removeKey k idx ↔ a ∈ idx ∧ a.key ≠ k := by
  simp [removeKey]

theorem mem_replaceItem {it a : IndexItem} {idx : List IndexItem} (h : a ∈ replaceItem it idx) :
    a = it ∨ (a ∈ idx ∧ a.key ≠ it.key) := by
  simp only [replaceItem, List.mem_map] at h
  obtain ⟨b, hb, rfl⟩ := h
  split
  · exact .inl rfl
  · next hk => exact .inr ⟨hb, hk⟩

/-- Two items of an ordered index with one key are one item. -/
theorem IndexOrdered.eq_of_key {idx : List IndexItem} (h : IndexOrdered idx) {a b : IndexItem} (ha : a ∈ idx)
    (hb : b ∈ idx) (hk : a.key = b.key) : a = b := by
  induction idx with
  | nil => simp at ha
  | cons x t ih =>
    have hp := List.pairwise_cons.1 h
    rcases List.mem_cons.1 ha with ha | ha <;> rcases List.mem_cons.1 hb with hb | hb
    · rw [ha, hb]
    · have := (hp.1 b hb).1
      rw [ha] at hk; omega
    · have := (hp.1 a ha).1
      rw [hb] at hk; omega
    · exact ih hp.2 ha hb

/-- Of two items of an ordered index the one with the lesser key lies wholly below the other. -/
theorem IndexOrdered.upper_lt {idx : List IndexItem} (h : IndexOrdered idx) {a b : IndexItem} (ha : a ∈ idx)
    (hb : b ∈ idx) (hk : a.key < b.key) : a.upper < b.lower := by
  induction idx with
  | nil => simp at ha
  | cons x t ih =>
    have hp := List.pairwise_cons.1 h
    rcases List.mem_cons.1 ha with ha | ha
    · rcases List.mem_cons.1 hb with hb | hb
      · rw [ha, hb] at hk; omega
      · rw [ha]; exact (hp.1 b hb).2
    · rcases List.mem_cons.1 hb with hb | hb
      · have := (hp.1 a ha).1
        rw [hb] at hk; omega
      · exact ih hp.2 ha hb

theorem predecessor_some {idx : List IndexItem} {k : Nat} {it : IndexItem} (h : predecessor idx k = some it) :
    it ∈ idx ∧ it.key < k :=
  ⟨by simpa using List.mem_of_find?_eq_some h, by simpa using List.find?_some h⟩

theorem successor_some {idx : List IndexItem} {k : Nat} {it : IndexItem} (h : successor idx k = some it) :
    it ∈ idx ∧ k < it.key :=
  ⟨List.mem_of_find?_eq_some h, by simpa using List.find?_some h⟩

theorem predecessor_none {idx : List IndexItem} {k : Nat} (h : predecessor idx k = none) :
    ∀ it ∈ idx, k ≤ it.key := by
  intro it hit
  simpa using List.find?_eq_none.1 h it (by simpa using hit)

theorem successor_none {idx : List IndexItem} {k : Nat} (h : successor idx k = none) : ∀ it ∈ idx, it.key ≤ k := by
  intro it hit
  simpa using List.find?_eq_none.1 h it hit

/-- In an ordered index the predecessor has the greatest key below. -/
theorem IndexOrdered.key_le_predecessor {idx : List IndexItem} (h : IndexOrdered idx) {k : Nat} {it : IndexItem}
    (hp : predecessor idx k = some it) : ∀ a ∈ idx, a.key < k → a.key ≤ it.key := by
  intro a ha hak
  obtain ⟨_, l, r, hl, hall⟩ := List.find?_eq_some_iff_append.1 hp
  have hidx : idx = r.reverse ++ it :: l.reverse := by
    have := congrArg List.reverse hl
    simpa using this
  rw [hidx] at ha h
  rcases List.mem_append.1 ha with ha | ha
  · exact le_of_lt ((List.pairwise_append.1 h).2.2 a ha it (by simp)).1
  · rcases List.mem_cons.1 ha with ha | ha
    · rw [ha]
    · have := hall a (by simpa using ha)
      simp at this; omega

/-- In an ordered index the successor has the least key above. -/
theorem IndexOrdered.successor_le_key {idx : List IndexItem} (h : IndexOrdered idx) {k : Nat} {it : IndexItem}
    (hp : successor idx k = some it) : ∀ a ∈ idx, k < a.key → it.key ≤ a.key := by
  intro a ha hak
  obtain ⟨_, l, r, hl, hall⟩ := List.find?_eq_some_iff_append.1 hp
  rw [hl] at ha h
  rcases List.mem_append.1 ha with ha | ha
  · have := hall a ha
    simp at this; omega
  · rcases List.mem_cons.1 ha with ha | ha
    · rw [ha]
    · exact le_of_lt ((List.pairwise_cons.1 (List.pairwise_append.1 h).2.1).1 a ha).1

/-- What the ORDER check against two neighbours gives in an ordered index whose windows are not empty: the window is apart
from every other (R81). -/
theorem ordered_apart {idx : List IndexItem} (h : IndexOrdered idx) (hw : ∀ a ∈ idx, a.lower ≤ a.upper) {k : Nat}
    {lo hi : Int} (ho : ordered idx k lo hi = true) :
    ∀ a ∈ idx, (a.key < k → a.upper < lo) ∧ (k < a.key → hi < a.lower) := by
  simp only [ordered, Bool.and_eq_true] at ho
  intro a ha
  constructor
  · intro hk
    cases hp : predecessor idx k with
    | none => have := predecessor_none hp a ha; omega
    | some it =>
      have hit : it.upper < lo := by simpa [hp] using ho.1
      have hm := (predecessor_some hp).1
      rcases Nat.lt_or_eq_of_le (h.key_le_predecessor hp a ha hk) with hlt | heq
      · have h1 := h.upper_lt ha hm hlt
        have h2 := hw it hm
        omega
      · rw [h.eq_of_key ha hm heq]; exact hit
  · intro hk
    cases hs : successor idx k with
    | none => have := successor_none hs a ha; omega
    | some it =>
      have hit : hi < it.lower := by simpa [hs] using ho.2
      have hm := (successor_some hs).1
      rcases Nat.lt_or_eq_of_le (h.successor_le_key hs a ha hk) with hlt | heq
      · have h1 := h.upper_lt hm ha hlt
        have h2 := hw it hm
        omega
      · rw [← h.eq_of_key hm ha heq]; exact hit

/-- An item with a new key whose window is apart from every other keeps the index ordered (R80, R81). -/
theorem IndexOrdered.insert {idx : List IndexItem} (h : IndexOrdered idx) {it : IndexItem}
    (hne : ∀ a ∈ idx, a.key ≠ it.key)
    (ha : ∀ a ∈ idx, (a.key < it.key → a.upper < it.lower) ∧ (it.key < a.key → it.upper < a.lower)) :
    IndexOrdered (insertItem it idx) := by
  induction idx with
  | nil => simp [insertItem, IndexOrdered]
  | cons x t ih =>
    have hp := List.pairwise_cons.1 h
    have hx := ha x (by simp)
    have hxk := hne x (by simp)
    unfold insertItem
    split
    · next hlt =>
      refine List.pairwise_cons.2 ⟨?_, h⟩
      intro a hmem
      rcases List.mem_cons.1 hmem with hm | hm
      · rw [hm]; exact ⟨hlt, hx.2 hlt⟩
      · have h1 := (hp.1 a hm).1
        have h2 : it.key < a.key := by omega
        exact ⟨h2, (ha a hmem).2 h2⟩
    · refine List.pairwise_cons.2 ⟨?_, ih hp.2 (fun a hm => hne a (by simp [hm])) (fun a hm => ha a (by simp [hm]))⟩
      intro a hmem
      rcases mem_insertItem.1 hmem with hm | hm
      · rw [hm]
        have h2 : x.key < it.key := by omega
        exact ⟨h2, hx.1 h2⟩
      · exact hp.1 a hm

/-- The replacement of an item by one of its key whose window is apart from every other keeps the index ordered. -/
theorem IndexOrdered.replace {idx : List IndexItem} (h : IndexOrdered idx) {it : IndexItem}
    (ha : ∀ a ∈ idx, (a.key < it.key → a.upper < it.lower) ∧ (it.key < a.key → it.upper < a.lower)) :
    IndexOrdered (replaceItem it idx) := by
  unfold replaceItem IndexOrdered
  rw [List.pairwise_map]
  refine List.Pairwise.imp_of_mem ?_ h
  intro a b hma hmb hab
  split
  · next hka =>
    split
    · next hkb => omega
    · exact ⟨by omega, (ha b hmb).2 (by omega)⟩
  · split
    · next hkb => exact ⟨by omega, (ha a hma).1 (by omega)⟩
    · exact hab

theorem IndexOrdered.remove {idx : List IndexItem} (h : IndexOrdered idx) (k : Nat) : IndexOrdered (removeKey k idx) :=
  List.Pairwise.filter _ h

end Sys2Proof.Machine
end

