-- ==== Sys2Proof/Laws/Ops.lean ====
section
/-! SUPPORT. One lemma for each shared operation that says once everything it can do, so that no proof unfolds it: the
arithmetic, the passing of a request through the port, grants, commits, and the window logic. -/

namespace Sys2Proof.Machine

/-! ### Arithmetic -/

theorem clampInt_range {lo hi : Int} (h : lo ≤ hi) (v : Int) : lo ≤ clampInt lo hi v ∧ clampInt lo hi v ≤ hi := by
  unfold clampInt; split <;> [skip; split] <;> omega

theorem clampNat_range {lo hi : Nat} (h : lo ≤ hi) (v : Nat) : lo ≤ clampNat lo hi v ∧ clampNat lo hi v ≤ hi := by
  unfold clampNat; split <;> [skip; split] <;> omega

theorem saturate_range (v : Int) : InPositionRange (saturate v) :=
  clampInt_range (by decide) v

theorem bump_le {cap n : Nat} : bump cap n ≤ cap := by
  unfold bump; split <;> omega

theorem bump16_le (n : Nat) : bump16 n ≤ 65535 := bump_le
theorem bump8_le (n : Nat) : bump8 n ≤ 255 := bump_le

/-- round(n / d) lies within half a divisor of n, and n is exactly half-way only when rounded away from zero (R1). -/
theorem roundDiv_bounds (n d : Int) (hd : 0 < d) :
    2 * (d * roundDiv n d) ≤ 2 * n + d ∧ 2 * n - d ≤ 2 * (d * roundDiv n d) := by
  unfold roundDiv
  split
  · have h1 := Int.emod_add_mul_ediv (2 * n + d) (2 * d)
    have h2 := Int.emod_nonneg (2 * n + d) (show (2 * d) ≠ 0 by omega)
    have h3 := Int.emod_lt_of_pos (2 * n + d) (show 0 < 2 * d by omega)
    have h4 : 2 * d * ((2 * n + d) / (2 * d)) = 2 * (d * ((2 * n + d) / (2 * d))) := by ring
    omega
  · have h1 := Int.emod_add_mul_ediv (2 * -n + d) (2 * d)
    have h2 := Int.emod_nonneg (2 * -n + d) (show (2 * d) ≠ 0 by omega)
    have h3 := Int.emod_lt_of_pos (2 * -n + d) (show 0 < 2 * d by omega)
    have h4 : 2 * d * ((2 * -n + d) / (2 * d)) = 2 * (d * ((2 * -n + d) / (2 * d))) := by ring
    have h5 : d * -((2 * -n + d) / (2 * d)) = -(d * ((2 * -n + d) / (2 * d))) := by ring
    omega

/-! ### The request port -/

/-- What a transaction that is no FETCH leaves of the port is what the statements name (R184). -/
theorem RequestPort.ended_eq (q : RequestPort) (n : Nat) :
    q.ended n = { q with sdo := q.plainOut n, transfer := .high } := by
  unfold RequestPort.ended RequestPort.plainOut RequestPort.statusAtFall
  cases q.transfer <;> rfl

theorem State.shiftOut_eq (s : State) (n : Nat) : s.shiftOut n = { s with req := s.req.ended n } := by
  rw [RequestPort.ended_eq]
  rfl

/-- The rise of CS_N ends an ignored transaction, or `act` takes the transaction (R199). -/
theorem State.endTransfer_cases (s : State) (act : State → State) :
    (s.req.transfer = .ignored ∧ s.endTransfer act = s.endIgnored) ∨
      (s.req.transfer ≠ .ignored ∧ s.endTransfer act = act s) := by
  unfold State.endTransfer
  cases h : s.req.transfer <;> simp

/-- A transaction that is not ignored is acted on. -/
theorem State.endTransfer_of {s : State} (h : s.req.transfer ≠ .ignored) (act : State → State) :
    s.endTransfer act = act s :=
  ((s.endTransfer_cases act).resolve_left fun g => h g.1).2

/-- A request's transaction is ignored, or the request is busy and discarded, or it is taken at an IDLE link (R186, R199). -/
theorem State.request_cases (s : State) (len : Nat) (act : State → State) :
    (s.req.transfer = .ignored ∧ s.request len act = s.endIgnored) ∨
      (s.TakesRequests ∧ s.request len act = act (s.shiftOut (s.req.frameEdges len))) ∨
      (s.req.link ≠ .idle ∧ s.req.transfer ≠ .ignored ∧
        s.request len act = (s.shiftOut (s.req.frameEdges len)).discard) := by
  unfold State.request
  rcases s.endTransfer_cases _ with ⟨h, e⟩ | ⟨h, e⟩
  · exact .inl ⟨h, e⟩
  · rw [e]
    unfold State.TakesRequests
    cases hl : s.req.link <;> simp [h]

/-- A request without a table access is ignored, discarded, refused, or accepted (R186, R189, R199). -/
theorem State.serve_cases (s : State) (len : Nat) (act : State → Except Status (State × Response)) :
    (s.req.transfer = .ignored ∧ s.serve len act = s.endIgnored) ∨
      (s.req.link ≠ .idle ∧ s.req.transfer ≠ .ignored ∧
        s.serve len act = (s.shiftOut (s.req.frameEdges len)).discard) ∨
      (s.TakesRequests ∧ ∃ st, act (s.shiftOut (s.req.frameEdges len)) = .error st ∧
        s.serve len act = (s.shiftOut (s.req.frameEdges len)).place (.plain st)) ∨
      (s.TakesRequests ∧ ∃ t r, act (s.shiftOut (s.req.frameEdges len)) = .ok (t, r) ∧
        s.serve len act = t.place r) := by
  unfold State.serve
  rcases s.request_cases len _ with ⟨h, e⟩ | ⟨h, e⟩ | ⟨h, h', e⟩
  · exact .inl ⟨h, e⟩
  · rw [e]
    cases ha : act (s.shiftOut (s.req.frameEdges len)) with
    | error st => exact .inr (.inr (.inl ⟨h, st, rfl, rfl⟩))
    | ok v => exact .inr (.inr (.inr ⟨h, v.1, v.2, rfl, rfl⟩))
  · exact .inr (.inl ⟨h, h', e⟩)

/-- A table request is ignored, discarded, refused by its parameters, or asks for its first access (R82, R186, R199). -/
theorem State.serveTable_cases (s : State) (len : Nat) (check : Except Status Job) :
    (s.req.transfer = .ignored ∧ s.serveTable len check = s.endIgnored) ∨
      (s.req.link ≠ .idle ∧ s.req.transfer ≠ .ignored ∧
        s.serveTable len check = (s.shiftOut (s.req.frameEdges len)).discard) ∨
      (s.TakesRequests ∧ ∃ st, check = .error st ∧
        s.serveTable len check = (s.shiftOut (s.req.frameEdges len)).place (.plain st)) ∨
      (s.TakesRequests ∧ ∃ j, check = .ok j ∧ s.serveTable len check = s.asking len j) := by
  unfold State.serveTable
  rcases s.request_cases len _ with ⟨h, e⟩ | ⟨h, e⟩ | ⟨h, h', e⟩
  · exact .inl ⟨h, e⟩
  · rw [e]
    cases check with
    | error st => exact .inr (.inr (.inl ⟨h, st, rfl, rfl⟩))
    | ok j => exact .inr (.inr (.inr ⟨h, j, rfl, by rw [State.shiftOut_eq]; rfl⟩))
  · exact .inr (.inl ⟨h, h', e⟩)

/-- A response placed in a transaction of a whole request gives the state the statements name (R189). -/
theorem State.place_shiftOut (s : State) (len : Nat) (r : Response) :
    (s.shiftOut (s.req.frameEdges len)).place r = s.answered len r := by
  rw [State.shiftOut_eq]
  simp [State.place, State.raise, State.answered, Kinds.ofFn, Kinds.get, RequestPort.frameEdges]

/-- A FETCH that ends clears the DISCARDED flag, and empties the slot when it delivered a response whole (R187, R191). -/
theorem State.finishFetch_cases (s : State) (n : Nat) :
    (∃ r, s.req.recognized = .delivers r ∧ r.fetchEdges ≤ n ∧
        s.finishFetch n =
          { s with
            req := { s.req with sdo := s.req.fetchOut n, transfer := .high, discarded := false } }.emptySlot) ∨
      ((∀ r, s.req.recognized = .delivers r → ¬r.fetchEdges ≤ n) ∧
        s.finishFetch n =
          { s with req := { s.req with sdo := s.req.fetchOut n, transfer := .high, discarded := false } }) := by
  unfold State.finishFetch
  cases h : s.req.recognized with
  | undecided => exact .inr ⟨by simp, rfl⟩
  | notReady => exact .inr ⟨by simp, rfl⟩
  | delivers r =>
    by_cases hn : r.fetchEdges ≤ n
    · exact .inl ⟨r, rfl, hn, by simp [hn]⟩
    · exact .inr ⟨by simpa using hn, by simp [hn]⟩

/-- A grant to the executor: none takes place, or the waiting job's access does (R131, R142). -/
theorem State.grantAccess_cases (s : State) (run : Job → Option AccessResult) :
    s.grantAccess run = s ∨
      ∃ j r, s.req.executor = .waiting j ∧ s.executorGranted = true ∧ run j = some r ∧ s.grantAccess run = r.grant := by
  unfold State.grantAccess
  cases he : s.req.executor with
  | free => exact .inl rfl
  | accessing n => exact .inl rfl
  | waiting j =>
    dsimp only
    split
    · next hg =>
      cases hr : run j with
      | none => exact .inl rfl
      | some r => exact .inr ⟨j, r, rfl, hg, hr, rfl⟩
    · exact .inl rfl

/-- The access granted, when the waiting job is one the command runs. -/
theorem State.grantAccess_of {s : State} {run : Job → Option AccessResult} {j : Job} {r : AccessResult}
    (h : s.Grants j) (hr : run j = some r) : s.grantAccess run = r.grant := by
  unfold State.grantAccess
  rw [h.1]
  simp [h.2, hr]

/-! ### Commits -/

@[simp] theorem State.applyCommit_channel (s : State) (ps : MediumSet) (k : CommitKind) (a : Axis) :
    (s.applyCommit ps k).channels.get a = (s.channels.get a).recompensate (ps.w.get a) := Axes.get_ofFn _ _
@[simp] theorem State.applyCommit_sampled (s : State) (ps : MediumSet) (k : CommitKind) :
    (s.applyCommit ps k).sampled = s.sampled := rfl
@[simp] theorem State.applyCommit_lostNow (s : State) (ps : MediumSet) (k : CommitKind) :
    (s.applyCommit ps k).lostNow = s.lostNow := rfl
@[simp] theorem State.applyCommit_point (s : State) (ps : MediumSet) (k : CommitKind) (p : Point) :
    (s.applyCommit ps k).point p = (s.point p).takeCommit := by
  cases p <;> rfl
@[simp] theorem State.applyCommit_refok (s : State) (ps : MediumSet) (k : CommitKind) :
    (s.applyCommit ps k).refok = s.refok := rfl
@[simp] theorem State.applyCommit_table (s : State) (ps : MediumSet) (k : CommitKind) :
    (s.applyCommit ps k).table = s.table := rfl
@[simp] theorem State.applyCommit_index (s : State) (ps : MediumSet) (k : CommitKind) (p : Point) :
    (s.applyCommit ps k).index p = s.index p := rfl
@[simp] theorem State.applyCommit_port (s : State) (ps : MediumSet) (k : CommitKind) :
    (s.applyCommit ps k).port = s.port := rfl
@[simp] theorem State.applyCommit_pointer (s : State) (ps : MediumSet) (k : CommitKind) :
    (s.applyCommit ps k).pointer = s.pointer := rfl
@[simp] theorem State.applyCommit_notices (s : State) (ps : MediumSet) (k : CommitKind) :
    (s.applyCommit ps k).notices = s.notices := rfl
@[simp] theorem State.applyCommit_req (s : State) (ps : MediumSet) (k : CommitKind) :
    (s.applyCommit ps k).req = s.req := rfl
@[simp] theorem State.applyCommit_pending (s : State) (ps : MediumSet) (k : CommitKind) :
    (s.applyCommit ps k).pending = s.pending := rfl

/-- A commit is none without a pending set, and otherwise makes it active and raises its events (R36, R38). -/
theorem State.commit_cases (s : State) (k : CommitKind) :
    (s.cu.pendingSet = none ∧ s.commit k = s) ∨
      ∃ ps, s.cu.pendingSet = some ps ∧
        s.commit k = ((s.applyCommit ps k).raise .committed).raiseIf (decide (k = .panic)) .panicCommit := by
  unfold State.commit
  cases h : s.cu.pendingSet with
  | none => exact .inl ⟨rfl, rfl⟩
  | some ps => exact .inr ⟨ps, rfl, rfl⟩

/-- What an examination can do: nothing, or one commit that is not a panic commit (R164). -/
theorem State.examine_cases (s : State) :
    s.examine = s ∨ (s.cu.commitHold = false ∧ s.bothQuiet = true ∧ s.cu.hpMark ≤ s.cu.debt ∧ s.examine = s.commit .hp) ∨
      (s.cu.commitHold = false ∧ s.bothGuardClear = true ∧ s.examine = s.commit .opportunistic) := by
  unfold State.examine
  cases hh : s.cu.commitHold with
  | true => exact .inl rfl
  | false =>
    simp only [Bool.false_eq_true, ↓reduceIte]
    split
    · next h => exact .inr (.inl ⟨by trivial, h.2, h.1, rfl⟩)
    · split
      · next h => exact .inr (.inr ⟨by trivial, h, rfl⟩)
      · exact .inl rfl

/-- An examination leaves the state or takes a commit of some kind. -/
theorem State.examine_eq (s : State) : s.examine = s ∨ ∃ k, k ≠ .panic ∧ s.examine = s.commit k := by
  rcases s.examine_cases with h | ⟨_, _, _, h⟩ | ⟨_, _, h⟩
  · exact .inl h
  · exact .inr ⟨_, by decide, h⟩
  · exact .inr ⟨_, by decide, h⟩

/-- The stale test changes nothing, or sets the stale flag and raises MEDIUM_STALE (R159). -/
theorem State.staleTest_cases (s : State) :
    (s.staleTest = s ∧ ¬(s.cu.staleLimit ≤ s.cu.age ∧ s.cu.stale = false)) ∨
      (s.staleTest = { s with cu := { s.cu with stale := true } }.raise .mediumStale ∧ s.cu.staleLimit ≤ s.cu.age ∧
        s.cu.stale = false) := by
  unfold State.staleTest
  split
  · next h => exact .inr ⟨rfl, h⟩
  · next h => exact .inl ⟨rfl, h⟩

/-- Stages 2 to 4 of an expiry take a panic commit or an examination on the raised debt (R158). -/
theorem State.expiryCommit_cases (s : State) :
    (s.cu.raiseDebt.debt = s.cu.panicMark ∧ s.expiryCommit = { s with cu := s.cu.raiseDebt }.commit .panic) ∨
      (s.cu.raiseDebt.debt ≠ s.cu.panicMark ∧ s.expiryCommit = { s with cu := s.cu.raiseDebt }.examine) := by
  have hp : s.cu.raiseDebt.panicMark = s.cu.panicMark := by unfold Cu.raiseDebt; split <;> rfl
  unfold State.expiryCommit
  simp only [hp]
  split
  · next h => exact .inl ⟨h, rfl⟩
  · next h => exact .inr ⟨h, rfl⟩

/-- SET COMMIT POLICY's panic commit (R162). -/
theorem State.policyPanic_cases (s : State) :
    (s.policyPanic = s ∧ ¬(s.cu.pendingSet.isSome = true ∧ s.cu.panicMark ≤ s.cu.debt)) ∨
      (s.policyPanic = s.commit .panic ∧ s.cu.pendingSet.isSome = true ∧ s.cu.panicMark ≤ s.cu.debt) := by
  unfold State.policyPanic
  split
  · next h => exact .inr ⟨rfl, h⟩
  · next h => exact .inl ⟨rfl, h⟩

/-! ### Channels -/

/-- Everything a step that is formed can do (R7 to R9). -/
theorem Channel.countStep_cases (c : Channel) (last phase : Phase) :
    c.countStep last phase = c.enterLost .rate ∨
      c.countStep last phase = { c with count := Config.countMax }.enterLost .range ∨
      c.countStep last phase = { c with count := -Config.countMax }.enterLost .range ∨
      (-Config.stepLimit ≤ stepOf c.invert last phase ∧ stepOf c.invert last phase ≤ Config.stepLimit ∧
        -Config.countMax ≤ c.count + stepOf c.invert last phase ∧
        c.count + stepOf c.invert last phase ≤ Config.countMax ∧
        c.countStep last phase =
          { channel :=
              { c with
                count := c.count + stepOf c.invert last phase, lastPhase := some phase
                history := appendStep c.history (stepOf c.invert last phase) }
            lost := false }) := by
  unfold Channel.countStep
  dsimp only
  split
  · exact .inl rfl
  · split
    · exact .inr (.inl rfl)
    · split
      · exact .inr (.inr (.inl rfl))
      · exact .inr (.inr (.inr ⟨by omega, by omega, by omega, by omega, rfl⟩))

theorem appendStep_length {h : List Int} (hl : h.length ≤ Config.historyLength) (d : Int) :
    (appendStep h d).length ≤ Config.historyLength := by
  unfold appendStep
  split
  · next hf =>
    simp only [List.length_append, List.length_drop, List.length_cons, List.length_nil]
    unfold Config.historyLength at *; omega
  · next hf =>
    simp only [List.length_append, List.length_cons, List.length_nil]
    unfold Config.historyLength at *; omega

theorem mem_appendStep {h : List Int} {d x : Int} (hx : x ∈ appendStep h d) : x ∈ h ∨ x = d := by
  unfold appendStep at hx
  split at hx
  · rcases List.mem_append.1 hx with hx | hx
    · exact .inl (List.mem_of_mem_drop hx)
    · exact .inr (by simpa using hx)
  · rcases List.mem_append.1 hx with hx | hx
    · exact .inl hx
    · exact .inr (by simpa using hx)

/-! ### The window logic -/

/-- A trigger test changes nothing, or fires the trigger of an ARMED cursor (R112, R113, R114). -/
theorem MeasuringPoint.triggerTest_cases (m : MeasuringPoint) :
    m.triggerTest = m ∨
      ∃ d dir t, m.cursor = .armed d dir (some t) ∧ t.fired = false ∧ triggerReached dir t.position m.x = true ∧
        m.triggerTest = { m with cursor := .armed d dir (some { t with fired := true }), trg := true, trgLeft := 80 } := by
  unfold MeasuringPoint.triggerTest
  split
  · next d dir t hc =>
    split
    · next h =>
      simp only [Bool.and_eq_true, Bool.not_eq_eq_eq_not, Bool.not_true] at h
      exact .inr ⟨d, dir, t, hc, h.1, h.2, rfl⟩
    · exact .inl rfl
  all_goals exact .inl rfl

/-- What a seek designates is an item of the index, eligible, and ahead in the point's direction (R106). -/
theorem MeasuringPoint.seekTarget_some {m : MeasuringPoint} {idx : List IndexItem} {it : IndexItem} {dir : Travel}
    (h : m.seekTarget idx = some (it, dir)) :
    it ∈ idx ∧ eligible m.scan it = true ∧ ahead dir m.x it = true ∧ m.direction = some dir := by
  unfold MeasuringPoint.seekTarget at h
  split at h
  · simp at h
  · next hd =>
    rw [Option.map_eq_some_iff] at h
    obtain ⟨a, ha, hp⟩ := h
    cases hp
    have h1 := List.find?_some ha
    simp only [Bool.and_eq_true] at h1
    exact ⟨List.mem_of_find?_eq_some ha, h1.1, h1.2, hd⟩
  · next hd =>
    rw [Option.map_eq_some_iff] at h
    obtain ⟨a, ha, hp⟩ := h
    cases hp
    have h1 := List.find?_some ha
    simp only [Bool.and_eq_true] at h1
    exact ⟨by simpa using List.mem_of_find?_eq_some ha, h1.1, h1.2, hd⟩

/-- A seek that designates nothing: the direction is NONE or no eligible item is ahead (R106). -/
theorem MeasuringPoint.seekTarget_none {m : MeasuringPoint} {idx : List IndexItem} (h : m.seekTarget idx = none)
    {dir : Travel} (hd : m.direction = some dir) : ∀ it ∈ idx, (eligible m.scan it && ahead dir m.x it) = false := by
  intro it hit
  unfold MeasuringPoint.seekTarget at h
  cases dir with
  | forward =>
    rw [hd] at h
    simp only [Option.map_eq_none_iff, List.find?_eq_none] at h
    simpa using h it hit
  | reverse =>
    rw [hd] at h
    simp only [Option.map_eq_none_iff, List.find?_eq_none] at h
    simpa using h it (by simpa using hit)

/-- Everything an arming can do: the cursor is ARMED on the item with its trigger point, and the trigger may fire (R107,
R112). -/
theorem MeasuringPoint.arm_cases (m : MeasuringPoint) (it : IndexItem) (dir : Travel) :
    m.arm it dir = { m with cursor := .armed it.designation dir (triggerPointOf it dir m.config.lead) } ∨
      ∃ t, triggerPointOf it dir m.config.lead = some t ∧ triggerReached dir t.position m.x = true ∧
        m.arm it dir =
          { m with cursor := .armed it.designation dir (some { t with fired := true }), trg := true, trgLeft := 80 } := by
  unfold MeasuringPoint.arm
  rcases MeasuringPoint.triggerTest_cases
      { m with cursor := .armed it.designation dir (triggerPointOf it dir m.config.lead) } with h | ⟨d, dir', t, hc, _, hr, h⟩
  · exact .inl h
  · simp only [Cursor.armed.injEq] at hc
    obtain ⟨h1, h2, h3⟩ := hc
    subst h1; subst h2
    exact .inr ⟨t, h3, hr, h⟩

/-- Everything a seek can do (R106, R107, R111). -/
theorem MeasuringPoint.seek_cases (m : MeasuringPoint) (idx : List IndexItem) :
    (∃ it dir, m.seekTarget idx = some (it, dir) ∧
        ((m.cursor.sameArming it dir = true ∧ m.seek idx = .quiet m) ∨
          (m.cursor.sameArming it dir = false ∧ m.seek idx = .quiet (m.arm it dir)))) ∨
      (m.seekTarget idx = none ∧
        m.seek idx =
          { point := { m with cursor := .atEnd }, events := if m.cursor = .atEnd then [] else [.scanEnd] }) := by
  unfold MeasuringPoint.seek
  cases h : m.seekTarget idx with
  | none => exact .inr ⟨rfl, rfl⟩
  | some v =>
    obtain ⟨it, dir⟩ := v
    refine .inl ⟨it, dir, rfl, ?_⟩
    cases hs : m.cursor.sameArming it dir with
    | true => exact .inl ⟨rfl, by simp [hs]⟩
    | false => exact .inr ⟨rfl, by simp [hs]⟩

/-- An arming changes the cursor and the trigger line alone. -/
theorem MeasuringPoint.arm_frame (m : MeasuringPoint) (it : IndexItem) (dir : Travel) :
    ∃ tr g n, m.arm it dir = { m with cursor := .armed it.designation dir tr, trg := g, trgLeft := n } := by
  rcases m.arm_cases it dir with h | ⟨t, _, _, h⟩
  · exact ⟨_, m.trg, m.trgLeft, h⟩
  · exact ⟨_, _, _, h⟩

/-- A seek changes the cursor and the trigger line alone: it keeps the point, goes to END, or arms an eligible item ahead. -/
theorem MeasuringPoint.seek_frame (m : MeasuringPoint) (idx : List IndexItem) :
    ((m.seek idx).point = m ∧ ∃ it dir, m.seekTarget idx = some (it, dir) ∧ m.cursor.sameArming it dir = true) ∨
      (m.seek idx).point = { m with cursor := .atEnd } ∨
      ∃ it dir tr g n, m.seekTarget idx = some (it, dir) ∧
        (m.seek idx).point = { m with cursor := .armed it.designation dir tr, trg := g, trgLeft := n } := by
  rcases m.seek_cases idx with ⟨it, dir, ht, ⟨hs, h⟩ | ⟨_, h⟩⟩ | ⟨_, h⟩
  · exact .inl ⟨by rw [h]; rfl, it, dir, ht, hs⟩
  · obtain ⟨tr, g, n, ha⟩ := m.arm_frame it dir
    exact .inr (.inr ⟨it, dir, tr, g, n, ht, by rw [h]; exact ha⟩)
  · exact .inr (.inl (by rw [h]))

/-- The events of a seek: SCAN_END at most (R111). -/
theorem MeasuringPoint.seek_events (m : MeasuringPoint) (idx : List IndexItem) :
    (m.seek idx).events = [] ∨ (m.seek idx).events = [.scanEnd] := by
  rcases m.seek_cases idx with ⟨it, dir, _, ⟨_, h⟩ | ⟨_, h⟩⟩ | ⟨_, h⟩
  · exact .inl (by rw [h]; rfl)
  · exact .inl (by rw [h]; rfl)
  · rw [h]
    by_cases hc : m.cursor = .atEnd
    · exact .inl (by simp [hc])
    · exact .inr (by simp [hc])

/-- A handed edit seeks or does nothing (R84, R109). -/
theorem MeasuringPoint.handEdit_cases (m : MeasuringPoint) (idx : List IndexItem) (key : Nat)
    (before after : Option IndexItem) :
    (m.editSeeks key before after = true ∧ m.handEdit idx key before after = m.seek idx) ∨
      (m.editSeeks key before after = false ∧ m.handEdit idx key before after = .quiet m) := by
  unfold MeasuringPoint.handEdit
  cases m.editSeeks key before after <;> simp

/-- An offer appends the record, or loses it and counts the loss (R124, R125). -/
theorem MeasuringPoint.offer_cases (m : MeasuringPoint) (r : PassRecord) :
    (m.queue.length < 2 ∧ m.offer r = { m with queue := m.queue ++ [r] }) ∨
      (2 ≤ m.queue.length ∧
        m.offer r = { m with counters := { m.counters with overrunLost := bump16 m.counters.overrunLost } }) := by
  unfold MeasuringPoint.offer MeasuringPoint.queueHasRoom
  by_cases h : m.queue.length < 2
  · exact .inl ⟨h, by simp [h]⟩
  · exact .inr ⟨by omega, by simp [h]⟩

/-- The close of a SCANNING point's pass: it fits and the cursor seeks, or the point is HALTED (R123, R125). -/
theorem MeasuringPoint.closeScanning_cases (m : MeasuringPoint) (idx : List IndexItem) (stale : Bool) (cause : CloseCause)
    (r : OpenPass) :
    (m.queue.length < 2 ∧
        m.closeScanning idx stale cause r =
          { m with tracker := m.tracker.atClose
                   queue := m.queue ++ [r.close cause m.tracker.inProgress stale] }.seek idx) ∨
      (2 ≤ m.queue.length ∧
        m.closeScanning idx stale cause r =
          { point :=
              { m with tracker := m.tracker.atClose, state := .halted, cursor := .inactive
                       counters := { m.counters with overrunLost := bump16 m.counters.overrunLost } }
            events := [.pointHalted] }) := by
  unfold MeasuringPoint.closeScanning MeasuringPoint.offer MeasuringPoint.queueHasRoom
  by_cases h : m.queue.length < 2
  · exact .inl ⟨h, by simp [h]⟩
  · exact .inr ⟨by omega, by simp [h]⟩

/-- A close by STOP SCAN or by entry into SUSPENDED: no pass is open, or its record is offered (R120, R125). -/
theorem MeasuringPoint.closeStopped_cases (m : MeasuringPoint) (stale : Bool) (cause : CloseCause) :
    (m.passOpen = false ∧ m.closeStopped stale cause = { m with cursor := .inactive }) ∨
      ∃ d dir r, m.cursor = .opened d dir r ∧
        ((m.queue.length < 2 ∧
            m.closeStopped stale cause =
              { m with tracker := m.tracker.atClose, cursor := .inactive
                       queue := m.queue ++ [r.close cause m.tracker.inProgress stale] }) ∨
          (2 ≤ m.queue.length ∧
            m.closeStopped stale cause =
              { m with tracker := m.tracker.atClose, cursor := .inactive
                       counters := { m.counters with overrunLost := bump16 m.counters.overrunLost } })) := by
  unfold MeasuringPoint.closeStopped MeasuringPoint.passOpen
  cases hc : m.cursor with
  | inactive => exact .inl ⟨rfl, by cases m; subst hc; rfl⟩
  | atEnd => exact .inl ⟨rfl, rfl⟩
  | armed d dir t => exact .inl ⟨rfl, rfl⟩
  | opened d dir r =>
    refine .inr ⟨d, dir, r, rfl, ?_⟩
    unfold MeasuringPoint.offer MeasuringPoint.queueHasRoom
    by_cases h : m.queue.length < 2
    · exact .inl ⟨h, by simp [h]⟩
    · exact .inr ⟨by omega, by simp [h]⟩

/-- A commit handed to a point marks an open pass split and changes nothing else (R38). -/
theorem MeasuringPoint.takeCommit_cases (m : MeasuringPoint) :
    (m.passOpen = false ∧ m.takeCommit = m) ∨
      ∃ d dir r, m.cursor = .opened d dir r ∧ m.takeCommit = { m with cursor := .opened d dir { r with split := true } } := by
  unfold MeasuringPoint.takeCommit MeasuringPoint.passOpen
  cases hc : m.cursor with
  | inactive => exact .inl ⟨rfl, rfl⟩
  | atEnd => exact .inl ⟨rfl, rfl⟩
  | armed d dir t => exact .inl ⟨rfl, rfl⟩
  | opened d dir r => exact .inr ⟨d, dir, r, rfl, rfl⟩

/-- Everything a loss handed to a point can do (R64, R65). -/
theorem MeasuringPoint.takeLoss_cases (m : MeasuringPoint) (stale : Bool) (lost : Axis → Bool) :
    (m.running = true ∧ (∃ a, m.contributes a = true ∧ lost a = true) ∧ m.takeLoss stale lost = m.suspend stale .axisLost) ∨
      ((m.running = false ∨ ∀ a, m.contributes a = true → lost a = false) ∧ m.takeLoss stale lost = .quiet m) := by
  unfold MeasuringPoint.takeLoss
  split
  · next h =>
    simp only [Bool.and_eq_true, anyAxis_iff] at h
    exact .inl ⟨h.1, h.2, rfl⟩
  · next h =>
    refine .inr ⟨?_, rfl⟩
    simp only [Bool.and_eq_true, anyAxis_iff, not_and, not_exists, Bool.not_eq_true] at h
    cases hr : m.running with
    | false => exact .inl rfl
    | true => exact .inr (h hr)

end Sys2Proof.Machine
end

