-- ==== Sys2Proof/Laws/PerInstr.lean ====
section
/-! SUPPORT. One lemma for each command about its frame, if it has one: a request code, that code's L, and L parameter bytes
(R202, R203); what follows them is a FETCH's alone (R191). -/

namespace Sys2Proof.Laws.Frame

/-- The frame of a command is a request code, the L of that code and L bytes (R202, R203); what follows them is a FETCH's alone
(R191). -/
def Statement (i : Instr) : Prop :=
  ∀ sdi, encodeFrame i = some sdi →
    ∃ (code l : Byte) (ps : List Byte) (later : List Bool),
      sdi = bitsOf (code :: l :: ps) ++ later ∧ requestLength code.toNat = some l.toNat ∧ ps.length = l.toNat ∧
        (code.toNat ≠ 0 → later = [])

/-- A command without a frame. -/
theorem of_none {i : Instr} (h : encodeFrame i = none) : Statement i := by
  intro sdi hb
  rw [h] at hb
  cases hb

/-- A command with this frame. -/
theorem of_some {i : Instr} {code l : Byte} {ps : List Byte} (h : encodeFrame i = some (bitsOf (code :: l :: ps)))
    (hl : requestLength code.toNat = some l.toNat) (hp : ps.length = l.toNat) : Statement i := by
  intro sdi hb
  rw [h] at hb
  cases hb
  exact ⟨code, l, ps, [], (List.append_nil _).symm, hl, hp, fun _ => rfl⟩

theorem powerOnReset : Statement .powerOnReset := of_none rfl
theorem phaseSample (phases : Axes Phase) (sigok : Axes Bool) (refok : Bool)
    : Statement (.phaseSample phases sigok refok) := of_none rfl
theorem strobeLeadingEdge (p : Point) : Statement (.strobeLeadingEdge p) := of_none rfl
theorem strobeTrailingEdge (p : Point) (active : Nat) : Statement (.strobeTrailingEdge p active) := of_none rfl
theorem strobeCompletion (p : Point) : Statement (.strobeCompletion p) := of_none rfl
theorem triggerPulseEnd (p : Point) : Statement (.triggerPulseEnd p) := of_none rfl
theorem millisecondTick : Statement .millisecondTick := of_none rfl
theorem expiry : Statement .expiry := of_none rfl
theorem frameDiscarded (sdi : List Bool) : Statement (.frameDiscarded sdi) := of_none rfl
theorem fetch (m : FetchMoment) : Statement (.fetch m) := by
  cases m with
  | fall => exact of_none rfl
  | lByte => exact of_none rfl
  | runOn _ => exact of_none rfl
  | rise later =>
    intro sdi h
    cases h
    exact ⟨0x00, 0, [], later, rfl, rfl, rfl, fun h => absurd rfl h⟩
theorem configureAxis (axis fitted : Byte) (wavelength : BitVec 32) (fold invert drop : Byte)
    : Statement (.configureAxis axis fitted wavelength fold invert drop) :=
  of_some rfl rfl (by simp)
theorem presetAxis (axis : Byte) (value : BitVec 48) : Statement (.presetAxis axis value) :=
  of_some rfl rfl (by simp)
theorem readAxes : Statement .readAxes :=
  of_some rfl rfl (by simp)
theorem supplyMedium (generation : BitVec 16) (mask : Byte) (w : Axes (BitVec 32))
    : Statement (.supplyMedium generation mask w) :=
  of_some rfl rfl (by simp)
theorem setCommitPolicy (hp panic stale : Byte) (guard : BitVec 32) (hold : Byte)
    : Statement (.setCommitPolicy hp panic stale guard hold) :=
  of_some rfl rfl (by simp)
theorem forceCommit : Statement .forceCommit :=
  of_some rfl rfl (by simp)
theorem setTimer (select : Byte) (period count : BitVec 16) (enable : Byte)
    : Statement (.setTimer select period count enable) :=
  of_some rfl rfl (by simp)
theorem configurePoint (point enabled : Byte) (coeffs : Axes (BitVec 32)) (mode : Byte) (tau width hyst : BitVec 16)
    (lead : BitVec 32)
    : Statement (.configurePoint point enabled coeffs mode tau width hyst lead) :=
  of_some rfl rfl (by simp)
theorem startScan (point : Byte) (first last : BitVec 16) (stride : Byte) : Statement (.startScan point first last stride) :=
  of_some rfl rfl (by simp)
theorem stopScan (point : Byte) : Statement (.stopScan point) :=
  of_some rfl rfl (by simp)
theorem acknowledgeHalt (point : Byte) : Statement (.acknowledgeHalt point) :=
  of_some rfl rfl (by simp)
theorem loadEntry (point : Byte) (key : BitVec 16) (nominal : BitVec 48) (halfWidth : BitVec 32) (hold trigger : Byte)
    : Statement (.loadEntry point key nominal halfWidth hold trigger) :=
  of_some rfl rfl (by simp)
theorem amendEntry (point : Byte) (key : BitVec 16) (nominal : BitVec 48) (halfWidth : BitVec 32) (hold trigger : Byte)
    : Statement (.amendEntry point key nominal halfWidth hold trigger) :=
  of_some rfl rfl (by simp)
theorem clearEntry (point : Byte) (key : BitVec 16) : Statement (.clearEntry point key) :=
  of_some rfl rfl (by simp)
theorem retireEntries (point : Byte) (first last : BitVec 16) : Statement (.retireEntries point first last) :=
  of_some rfl rfl (by simp)
theorem lookupEntry (point : Byte) (key : BitVec 16) : Statement (.lookupEntry point key) :=
  of_some rfl rfl (by simp)
theorem sweepEntries (point : Byte) (start : BitVec 16) : Statement (.sweepEntries point start) :=
  of_some rfl rfl (by simp)
theorem readStatus (clear : Byte) : Statement (.readStatus clear) :=
  of_some rfl rfl (by simp)
theorem takeNotices (mask : BitVec 16) : Statement (.takeNotices mask) :=
  of_some rfl rfl (by simp)
theorem setRoutes (routes : BitVec 24) : Statement (.setRoutes routes) :=
  of_some rfl rfl (by simp)
theorem restart : Statement .restart :=
  of_some rfl rfl (by simp)
theorem loadEntryAccess : Statement .loadEntryAccess := of_none rfl
theorem amendEntryAccess : Statement .amendEntryAccess := of_none rfl
theorem clearEntryAccess : Statement .clearEntryAccess := of_none rfl
theorem retireStep : Statement .retireStep := of_none rfl
theorem lookupEntryAccess : Statement .lookupEntryAccess := of_none rfl
theorem sweepStep : Statement .sweepStep := of_none rfl
theorem restartAccess : Statement .restartAccess := of_none rfl
theorem evaluatorAccess : Statement .evaluatorAccess := of_none rfl
theorem evaluatorAccessComplete : Statement .evaluatorAccessComplete := of_none rfl
theorem executorAccessComplete : Statement .executorAccessComplete := of_none rfl

end Sys2Proof.Laws.Frame
end

