-- ==== Sys2Proof/Tests/Slice0.lean ====
section
/-! SUPPORT. The model's own tests: terms that WellFormed refuses, frames written out from the tables of R203, worked examples of
the manual, and for every statement with hypotheses a state and operands that meet them, clause by clause. -/

namespace Sys2Proof.Tests

open Sys2Proof.Machine

/-! ### Helpers -/

/-- The state after a command. -/
def run (i : Instr) (s : State) : State :=
  match exec i s with
  | .next t => t
  | .fault _ => s
  | .refused _ => s

/-- The states after several commands. -/
def runs : List Instr → State → State
  | [], s => s
  | i :: is, s => runs is (run i s)

/-- An axis in TRACKING, its last phase 0. -/
def tracking : Channel := { Channel.reset with state := .tracking, lastPhase := some 0, sigok := true, fitted := true }

/-- Axis 0 is as given, and was so at the last sample; the rest of the part as after power-on. -/
def axisState (c : Channel) : State :=
  { State.reset with
    channels := State.reset.channels.set 0 c, sampled := State.reset.channels.set 0 c, refok := true }

/-- MP0 after power-on but enabled and in a state, with axis 0 alone contributing. -/
def pointIn (st : RunState) : MeasuringPoint :=
  { State.reset.points.mp0 with state := st, config := { State.reset.points.mp0.config with enabled := true } }

/-- MP0 SCANNING forward with a cursor. -/
def scanning (c : Cursor) : MeasuringPoint := { pointIn .scanning with direction := some .forward, cursor := c }

/-- Key 5 of MP0 at 0 with half-width 1000 in slot 0, with its trigger flag set. -/
def entryA : Entry := newEntry .mp0 5 0 1000 false true
def itemA : IndexItem := indexItem 0 1 entryA
def designA : Designation := itemA.designation
def tableA : LineTable :=
  { slots := [(0, { revision := 1, entry := some entryA })], index := { mp0 := [itemA], mp1 := [] } }
def passA : OpenPass :=
  { slot := 0, revision := 1, entrySide := .low, direction := .forward, tally := 0, firstX := none, split := false }
def recordA : PassRecord := { slot := 0, revision := 1, direction := .forward, outcome := .missed, stale := false }

/-- MP0 as given, axis 0 TRACKING, key 5 in the table. -/
def world (m : MeasuringPoint) : State :=
  { axisState tracking with points := { State.reset.points with mp0 := m }, table := tableA }

/-- The executor waits for the access of `j`, in `world m`. -/
def waiting (m : MeasuringPoint) (j : Job) : State :=
  { world m with req := { State.reset.req with link := .executing, executor := .waiting j } }

/-! ### Well-formedness -/

theorem test_trailing_edge_of_no_period_refused : (Instr.strobeTrailingEdge .mp0 0).wellFormed = false := by decide

/-! ### Frames, byte by byte (R203), each byte most significant bit first (R184) -/

/-- The code 0x31 on SDI, its bits in the order of R184, then L, the mask, and three bits of a fifth byte. -/
theorem test_bits_most_significant_first :
    completeBytes ([false, false, true, true, false, false, false, true] ++
      [false, false, false, false, false, false, true, false] ++ [true, false, false, false, false, false, false, true] ++
      [false, false, false, false, false, false, false, false] ++ [true, true, true]) = [0x31, 2, 0x81, 0] := by decide

theorem test_frame_fetch :
    judgeFrame (bitsOf [0x00, 0, 0x80] ++ [true]) =
      .request (.fetch (.rise [true, false, false, false, false, false, false, false, true])) := by decide

theorem test_frame_configure_axis :
    judgeFrame (bitsOf [0x01, 9, 2, 1, 0x2C, 0xB7, 0xBA, 0x25, 2, 0, 40]) =
      .request (.configureAxis 2 1 0x25BAB72C 2 0 40) := by decide

theorem test_frame_preset_axis :
    judgeFrame (bitsOf [0x02, 7, 0, 0x78, 0xEC, 0xFF, 0xFF, 0xFF, 0xFF]) = .request (.presetAxis 0 (-5000)) := by decide

theorem test_frame_supply_medium :
    judgeFrame (bitsOf ([0x04, 27, 8, 0, 0x03, 0xD1, 0x5E, 0x29, 0] ++ [0xD6, 0x5E, 0x29, 0] ++ List.replicate 16 0)) =
      .request (.supplyMedium 8 0x03 ⟨2711249, 2711254, 0, 0, 0, 0⟩) := by decide

theorem test_frame_set_commit_policy :
    judgeFrame (bitsOf [0x05, 8, 4, 8, 120, 0x00, 0x2D, 0x31, 0x01, 1]) = .request (.setCommitPolicy 4 8 120 20000000 1) := by decide

theorem test_frame_set_timer :
    judgeFrame (bitsOf [0x07, 6, 0x05, 0xE7, 0x03, 0xF4, 0x01, 1]) = .request (.setTimer 0x05 999 500 1) := by decide

theorem test_frame_configure_point :
    judgeFrame (bitsOf ([0x10, 37, 1, 1] ++ [0, 0, 8, 0] ++ [0, 0, 0xF8, 0xFF] ++ List.replicate 16 0 ++
        [2, 0xE8, 0x03, 100, 0, 200, 0, 0x80, 0x84, 0x1E, 0])) =
      .request (.configurePoint 1 1 ⟨524288, -524288, 0, 0, 0, 0⟩ 2 1000 100 200 2000000) := by decide

theorem test_frame_start_scan :
    judgeFrame (bitsOf [0x11, 6, 0, 40, 0, 60, 0, 5]) = .request (.startScan 0 40 60 5) := by decide

/-- The nominal and the half-width are the bytes of the manual's entry record example (chapter 10). -/
theorem test_frame_load_entry :
    judgeFrame (bitsOf [0x20, 15, 0, 0x0A, 0, 0x00, 0xE4, 0x0B, 0x54, 0x02, 0x00, 0x80, 0xC3, 0xC9, 0x01, 0, 1]) =
      .request (.loadEntry 0 10 10000000000 30000000 0 1) := by decide

theorem test_frame_retire_entries :
    judgeFrame (bitsOf [0x23, 5, 1, 0xD0, 0, 0xD7, 0]) = .request (.retireEntries 1 208 215) := by decide

theorem test_frame_take_notices :
    judgeFrame (bitsOf [0x31, 2, 0x83, 0]) = .request (.takeNotices 0x83) := by decide
theorem test_frame_set_routes :
    judgeFrame (bitsOf [0x32, 3, 0x45, 0x40, 0x08]) = .request (.setRoutes 0x084045) := by decide

/-- LOAD ENTRY with a length of 14 is malformed (chapter 09, transaction 5). -/
theorem test_frame_load_entry_length_14 : judgeFrame (bitsOf (0x20 :: 14 :: List.replicate 14 0)) = .malformed := by decide

/-! ### Worked examples of the manual -/

/-- Chapter 01, unwrapping and the rate limit: samples 2 to 5 after the preset at 5,000. -/
theorem test_phase_sample_unwraps :
    let sample (n : Phase) : Instr := .phaseSample ⟨n, 0, 0, 0, 0, 0⟩ (.all true) true
    let c := (runs [sample 1020, sample 30, sample 400, sample 784]
      (axisState { tracking with lastPhase := some 1000, count := 5000 })).channels.a0
    c.count = 5808 ∧ c.history = [20, 34, 370, 384] ∧ c.state = .tracking := by decide +kernel

/-- The same example, sample 6: a step of 385 is refused. -/
theorem test_phase_sample_rate :
    let c := (run (.phaseSample ⟨145, 0, 0, 0, 0, 0⟩ (.all true) true)
      (axisState { tracking with lastPhase := some 784, count := 5808 })).channels.a0
    c.state = .lost ∧ c.lostCause = .rate ∧ c.count = 5808 ∧ c.lastPhase = some 784 := by decide

/-- R23 and R22: PRESET AXIS at the moment of the sample that loses the axis by RATE is refused with AXIS_STATE, and is accepted one CLKIN
period later, the lines being good and the channel seeded. -/
theorem test_preset_at_the_moment_of_a_loss :
    let s := run (.phaseSample ⟨145, 0, 0, 0, 0, 0⟩ (.all true) true)
      (axisState { tracking with lastPhase := some 784, count := 5808 })
    (run (.presetAxis 0 5000) s).req.slot = some { status := .axisState, data := [] } ∧
      (run (.presetAxis 0 5000) s.idle).req.slot = some { status := .ok, data := [] } ∧
      ((run (.presetAxis 0 5000) s.idle).channels.get 0).count = 5000 := by decide

/-- Chapter 02, from wavelength to Kc. -/
theorem test_scale_of_the_first_example :
    vacuumScale 632991212 2 = 663739393114 ∧ compensatedScale 663739393114 2711265 = 663559435775 ∧
      positionOf 1000000 663559435775 = 154496971 := by decide

/-- Chapter 02, supplies merging before a commit: the second supply. -/
theorem test_supply_merges_and_clamps :
    let s := { State.reset with
      cu := { Cu.reset with commitHold := true, debt := 2, age := 2, activeW := ⟨2711000, 2711000, 2709500, 0, 0, 0⟩
                            pendingSet := some { w := ⟨2711265, 2711270, 2709500, 0, 0, 0⟩, generation := 8 } } }
    let t := run (.supplyMedium 9 0x06 ⟨0, 2711280, 25000000, 0, 0, 0⟩) s
    t.cu.pendingSet = some { w := ⟨2711265, 2711280, 20000000, 0, 0, 0⟩, generation := 9 } ∧ t.cu.debt = 2 ∧
      t.cu.age = 0 ∧ t.req.slot = some { status := .clamped, data := [] } := by decide

/-- Chapter 03, latching a line on two axes. -/
theorem test_latch_on_two_axes :
    let chs := (State.reset.channels.set 0 { tracking with count := 1000000, kc := 663559435775, history := [104] }).set 1
      { tracking with count := 1000200, kc := 663559435775, history := [104] }
    let m := { pointIn .scanning with config :=
      { (pointIn .scanning).config with coeffs := ⟨524288, 524288, 0, 0, 0, 0⟩, tau := 1000 } }
    m.latch chs = 154492336 ∧ formVx m.config.coeffs chs = 16068 := by decide

/-- R46: a commit and then a PRESET AXIS since the last sample do not show in the X that CONFIGURE POINT forms; the sample that follows
forms X with both. A count of 1000 at 1000 pm, W of a thousandth, and a preset to 3000. -/
theorem test_configure_point_takes_the_axes_of_the_last_sample :
    let c := { tracking with count := 1000, q := 4294967296000, kc := 4294967296000 }
    let ps : MediumSet := { w := ⟨10000000, 0, 0, 0, 0, 0⟩, generation := 1 }
    let t := run (.presetAxis 0 3000) ({ axisState c with cu := { Cu.reset with pendingSet := some ps } }.commit .hp)
    let u := run (.configurePoint 0 1 ⟨1048576, 0, 0, 0, 0, 0⟩ 0 0 0 200 0) { t with req := State.reset.req }
    (t.channels.get 0).position = 2997000 ∧ u.points.mp0.x = 1000000 ∧
      (run (.phaseSample (.all 0) (.all true) true) u).points.mp0.x = 2997000 := by decide

/-- Chapter 03, an axis lost in mid-window: the rising edge on STB0 during the hold. -/
theorem test_leading_edge_in_hold :
    let s := { axisState { tracking with hold := 1 } with
      points := { State.reset.points with mp0 := scanning (.opened designA .forward { passA with tally := 1 }) } }
    let m := (run (.strobeLeadingEdge .mp0) s).points.mp0
    m.tracker = .settling ∧ m.counters.heldStrobe = 1 ∧ m.cursor = .opened designA .forward { passA with tally := 1 } := by
  decide

/-- Chapter 03, the same line in CENTRE_HIGH mode: the mean of both latches. -/
theorem test_trailing_edge_centre :
    let pt := scanning (.opened designA .forward passA)
    let m := { pt with tracker := .qualifying 154492100 1, config := { pt.config with mode := .centreHigh } }
    let chs := State.reset.channels.set 0 { tracking with count := 1, kc := 154492571 * 4294967296 }
    (m.trailingEdge chs 80).cursor = .opened designA .forward { passA with tally := 1, firstX := some 154492336 } := by
  decide

/-- Chapter 04, building a point's table: requests 1, 7 and 9. -/
theorem test_load_ten_and_neighbours :
    let s := (State.reset.loadAccess (newEntry .mp0 10 10000000000 30000000 false false) false).state
    s.table.slot 0 =
        { revision := 1, entry := some (newEntry .mp0 10 10000000000 30000000 false false) } ∧
      (s.loadAccess (newEntry .mp0 9 10500000000 30000000 false false) false).next =
        .answer { status := .order, data := [] } ∧
      (s.loadAccess (newEntry .mp0 15 14060000000 1000 false false) true).next =
        .answer { status := .clamped, data := [1, 0, 1, 0] } := by decide

/-- Chapter 04, retiring behind the carriage: an OPEN entry is skipped, another retired. -/
theorem test_retire_skips_the_open_entry :
    (run .retireStep (waiting (scanning (.opened designA .forward passA)) (.retire .mp0 5 5 2 0))).req.executor =
        .accessing (.answer { status := .ok, data := [2, 0, 1, 0] }) ∧
      (run .retireStep (waiting (pointIn .idle) (.retire .mp0 5 5 2 0))).table.slot 0 = { revision := 2, entry := none } := by
  decide

/-- Chapter 05, edits ahead of the carriage: the retirement of the only entry ahead puts the cursor at END. -/
theorem test_retire_of_the_armed_entry_ends_the_scan :
    let s := waiting { scanning (.armed designA .forward none) with x := -5000, scan := ⟨0, 65535, 1⟩ } (.retire .mp0 0 9 0 0)
    (run .retireStep s).points.mp0.cursor = .atEnd ∧ (run .retireStep s).notices.flags.scanEnd = true := by decide

/-- Chapter 06, one entry's results: records 1, 2 and 6 of the table. -/
theorem test_records_applied :
    let pass (o : Outcome) : PassRecord := { recordA with outcome := o }
    let r := ((Results.load.applyPass 12000000000 (pass (.matched 12000000310))).applyPass 12000000000
      (pass .missed)).applyPass 12000000000 (pass (.matched 12000000262))
    r.forward = { n := 2, sum := 572, extremes := some { min := 262, max := 310 } } ∧ r.missCount = 1 ∧ r.passTotal = 3 ∧
      r.forward.mean = some 286 ∧ r.forward.spread = some 48 := by decide

/-- Chapter 06, the arbiter under load: with a wait count of 4 the executor is granted though the evaluator requests. -/
theorem test_arbiter_grants_the_executor_at_four :
    let s := { waiting { pointIn .idle with queue := [recordA] } (.sweep .mp0 0 0 []) with
      port := { occupant := .free, left := 0, waitCount := 4 } }
    run .evaluatorAccess s = s ∧ (run .sweepStep s).port = { occupant := .executor, left := 8, waitCount := 0 } := by
  decide

/-- Chapter 07, a panic commit under hold: the expiry at which the debt reaches the panic mark 6. -/
theorem test_expiry_panics_under_hold :
    let s := { world (scanning (.opened designA .forward passA)) with
      cu := { Cu.reset with commitHold := true, panicMark := 6, debt := 5, timerEnable := true, timerCount := 0
                            pendingSet := some { w := .all 7, generation := 3 } } }
    let t := run .expiry s
    t.cu.debt = 0 ∧ t.cu.pendingSet = none ∧ t.cu.lastCommit = .panic ∧ t.notices.flags.committed = true ∧
      t.notices.flags.panicCommit = true ∧ t.points.mp0.cursor = .opened designA .forward { passA with split := true } := by
  decide

/-- Chapter 07, a count written at the expiry: with the request first the tick reduces the count 500. -/
theorem test_count_written_before_the_tick :
    let s := { State.reset with cu := { Cu.reset with timerEnable := true, timerCount := 0 } }
    (runs [.setTimer 0x02 0 500 0, .millisecondTick] s).cu.timerCount = 499 ∧
      (runs [.millisecondTick, .setTimer 0x02 0 500 0] s).cu.timerCount = 500 := by decide

/-- Chapter 08, a reference outage: the second TAKE NOTICES clears the kinds its mask names. -/
theorem test_take_notices_clears_the_named :
    let s := { State.reset with
      notices := { flags := { Kinds.all false with axisLost := true, refLost := true, entryMissed := true }
                   routes := { Kinds.all .nowhere with axisLost := .a, responseReady := .b } } }
    let t := run (.takeNotices 0x0003) s
    t.notices.flags = { Kinds.all false with entryMissed := true, responseReady := true } ∧ s.notices.noteA = true ∧
      t.notices.noteA = false ∧ t.notices.noteB = true := by decide

/-- A FETCH of `n` bytes given as one command. -/
def fetchOf (n : Nat) : Instr := .fetch (.rise (List.replicate (8 * (n - 2)) false))

/-- Chapter 09, one request and its answer: a busy request is discarded, and the FETCH shows it and delivers. -/
theorem test_busy_request_then_fetch :
    let s := run (.setTimer 0 0 0 0) State.reset
    let t := run .forceCommit s
    let u := run (fetchOf 5) t
    t.req.discarded = true ∧ t.req.discardedCount = 1 ∧ u.req.sdo = bitsOf [6, 0, 0, 0, 0] ∧ u.req.link = .idle ∧
      u.req.discarded = false ∧ (run (fetchOf 5) u).req.sdo = bitsOf [0, 0, 2, 0, 0] := by decide

/-- Chapter 09: a FETCH ended after 7 of its 9 bytes leaves the response where it is. -/
theorem test_fetch_cut_short :
    let s := { State.reset with req := { State.reset.req with
      link := .ready, slot := some { status := .ok, data := [7, 0, 1, 0] } } }
    (run (fetchOf 7) s).req.slot = s.req.slot ∧ (run (fetchOf 7) s).req.sdo = bitsOf [2, 0, 0, 4, 0, 7, 0] ∧
      (run (fetchOf 9) s).req.slot = none := by decide

/-- R185, R191: a response placed between the fall of CS_N and the L byte goes out behind a byte that shows EXECUTING; one placed
after the L byte does not go out. -/
theorem test_response_placed_within_a_fetch :
    let s := { waiting (pointIn .idle) .restart with req := { State.reset.req with
      link := .executing, executor := .accessing (.answer { status := .ok, data := [] }) } }
    let rise : Instr := .fetch (.rise (List.replicate 24 false))
    let t := runs [.fetch .fall, .executorAccessComplete, .fetch .lByte, rise] s
    let u := runs [.fetch .fall, .fetch .lByte, .executorAccessComplete, rise] s
    t.req.sdo = bitsOf [1, 0, 0, 0, 0] ∧ t.req.link = .idle ∧ u.req.sdo = bitsOf [1, 0, 2, 0, 0] ∧ u.req.link = .ready := by
  decide

/-- R185: a one-byte transaction reads the link status byte and carries no request; SDO is driven from its fall to its rise. -/
theorem test_status_read :
    let t := run (.fetch .fall) State.reset
    let u := run (.frameDiscarded (List.replicate 8 true)) t
    State.reset.req.sdoDriven = false ∧ t.req.sdoDriven = true ∧ u.req.sdoDriven = false ∧ u.req.sdo = bitsOf [0] ∧
      u.req.discarded = false ∧ u.req.malformedCount = 0 := by decide

/-- R184, R202: bytes after a request's frame are ignored, and SDO carries zeros at them; RESTART's frame is two bytes. -/
theorem test_bytes_after_the_frame :
    let t := runs [.fetch .fall, .fetch (.runOn (List.replicate 11 true)), .restart] State.reset
    t.req.sdo = List.replicate 27 false ∧ t.req.link = .executing ∧ t.req.transfer = .high := by decide

/-- R199: a transaction under way at RESET_N is ignored, and the next one is taken. -/
theorem test_reset_within_a_transaction :
    let t := runs [.fetch .fall, .powerOnReset] State.reset
    t.req.transfer = .ignored ∧ (run .readAxes t).req.slot = none ∧ (runs [.readAxes, .readAxes] t).req.slot.isSome = true := by
  decide

/-- Chapter 10, one entry record: the bytes the example lists, by offset. -/
theorem test_entry_record :
    let e := { newEntry .mp0 10 10000000000 30000000 false false with results :=
      { Results.load with
        forward := { n := 3, sum := 977, extremes := some { min := 290, max := 351 } }
        reverse := { n := 2, sum := -208, extremes := some { min := -120, max := -88 } }
        passTotal := 5, lastPass := some { outcome := .matched (-88), direction := .reverse } } }
    let bs := entryRecord 0 1 e 0
    bs.take 26 = [0, 0, 1, 0, 0, 0x0A, 0, 0x00, 0xE4, 0x0B, 0x54, 0x02, 0x00, 0x80, 0xC3, 0xC9, 0x01, 0, 0, 0x0F, 1, 2,
      0xA8, 0xFF, 0xFF, 0xFF] ∧
    (bs.drop 28).take 12 = [5, 0, 3, 0, 0xD1, 0x03, 0, 0, 0, 0, 0, 0] ∧ (bs.drop 48).take 4 = [0x46, 1, 0, 0] ∧
      (bs.drop 58).take 8 = [0x30, 0xFF, 0xFF, 0xFF, 0xFF, 0xFF, 0xFF, 0xFF] ∧
      (bs.drop 82).take 6 = [0xAE, 1, 0, 0, 0, 0] := by decide

/-- Chapter 11, the last key of the forward leg: with nothing ahead the close puts the cursor at END and raises SCAN_END. -/
theorem test_close_with_nothing_ahead :
    let m := { scanning (.opened designA .forward { passA with tally := 1, firstX := some 351 }) with x := 1001 }
    (m.closingTest [itemA] false).point.cursor = .atEnd ∧ (m.closingTest [itemA] false).events = [.scanEnd] ∧
      (m.closingTest [itemA] false).point.queue = [{ recordA with outcome := .matched 351 }] := by decide

/-! ### The statements' hypotheses are met

Each theorem below names in its docstring the statement whose hypotheses it shows to be met, clause by clause. -/

/-- MP0 at X = −5000, ARMED on key 5, one record waiting and under evaluation. -/
def live : State :=
  { world { scanning (.armed designA .forward none) with
      x := -5000, prevX := -5000, scan := ⟨0, 65535, 1⟩, queue := [recordA] } with
    port := { occupant := .evaluator, left := 3, waitCount := 0 }, pointer := .mp1 }

theorem tableA_slot (n : Nat) :
    tableA.slot n = if n = 0 then { revision := 1, entry := some entryA } else Slot.blank := by
  simp [LineTable.slot, tableA, slotGet]

theorem tableA_ok : TableOk tableA where
  slots := ⟨by simp [tableA], by simp [tableA], by simp [tableA, Slot.blank], by simp [tableA]⟩
  definitions := by
    intro n e h
    rw [tableA_slot] at h
    split at h
    · cases h
      exact ⟨by decide, by unfold InPositionRange; decide, by decide⟩
    · cases h
  ordered := by intro p; cases p <;> simp [tableA, Pair.get, IndexOrdered]
  listed := by
    intro p it h
    cases p with
    | mp0 =>
      simp only [tableA, Pair.get, List.mem_singleton] at h
      subst h
      exact ⟨entryA, rfl, rfl, rfl⟩
    | mp1 => simp [tableA, Pair.get] at h
  complete := by
    intro n e h
    rw [tableA_slot] at h ⊢
    split at h
    · cases h
      simp_all [tableA, Pair.get, entryA, newEntry, itemA]
    · cases h

theorem live_channels : live.ChannelsOk := by
  intro a
  fin_cases a <;> constructor <;> decide

theorem live_points : live.PointsOk := by
  intro p
  cases p
  · exact ⟨⟨by decide, by decide, by decide, by decide, by decide⟩, by decide, by decide, by rintro d dir t ⟨⟩; rfl,
      by decide, by decide, by decide, by unfold CountersOk; decide, by unfold InPositionRange; decide,
      by unfold InPositionRange; decide, by decide, by decide⟩
  · exact ⟨⟨by decide, by decide, by decide, by decide, by decide⟩, by decide, by decide, by rintro d dir t ⟨⟩,
      by decide, by decide, by decide, by unfold CountersOk; decide, by unfold InPositionRange; decide,
      by unfold InPositionRange; decide, by decide, by decide⟩

theorem live_table : live.TableInv := ⟨tableA_ok, trivial⟩

theorem live_sampled : live.SampledOk := by
  intro a
  refine ⟨0, by decide, by decide, ?_⟩
  fin_cases a <;> exact live_channels _

theorem live_lost_now : live.LostNowOk := by
  unfold State.LostNowOk
  decide

/-- EveryStepKeepsTheChannels and RefusedAxisAndPointRequests: an axis that the sample of this moment put in LOST. -/
theorem witness_lost_now :
    let s := run (.phaseSample ⟨385, 0, 0, 0, 0, 0⟩ (.all true) true) (axisState tracking)
    s.LostNowOk ∧ s.lostNow.get 0 = true ∧ s.TakesRequests ∧ (s.channels.get 0).state = .lost := by
  unfold State.LostNowOk
  decide

/-- EveryStepKeepsTheChannels to EveryStepKeepsThePorts: a state that meets every invariant and takes a step. -/
theorem witness_invariants :
    live.ChannelsOk ∧ live.SampledOk ∧ live.LostNowOk ∧ CuOk live.cu ∧ live.PointsOk ∧ live.ScansTrack ∧ live.TableInv ∧ live.CursorsInv ∧
      live.StatisticsInv ∧ live.PortsInv ∧ step live = .next live.idle := by
  refine ⟨live_channels, live_sampled, live_lost_now, ?_, live_points, ?_, live_table, ⟨live_table, live_points, ?_⟩, ?_, ?_, rfl⟩
  · exact ⟨⟨by unfold WInRange; decide, by decide⟩, by rintro ps ⟨⟩, by decide, by decide, by decide, by decide, by decide,
      by decide, by decide, by decide, by decide⟩
  · intro p
    cases p <;> decide
  · intro p d h
    cases p
    · cases h
      exact ⟨itemA, by decide, by decide⟩
    · cases h
  · intro e he n hn
    simp only [live, world, tableA, List.mem_singleton] at he
    subst he
    cases hn
    exact ⟨⟨by decide, by decide, by decide⟩, ⟨by decide, by decide, by decide⟩, by decide, by decide, by decide,
      by rintro v ⟨⟩⟩
  · exact ⟨⟨rfl, rfl⟩, by rintro st f l ⟨⟩, by decide, by decide, by decide, by decide, by decide, by decide, by decide⟩

/-- EveryStepKeepsThePorts: a transaction under way that was found to deliver the waiting response. -/
theorem witness_transfer :
    let r : Response := { status := .ok, data := [7] }
    let q := { State.reset.req with link := .ready, slot := some r, transfer := .low 2 (.delivers r) [] }
    LinkOk q ∧ TransferOk q := by
  refine ⟨⟨rfl, rfl⟩, ?_⟩
  rintro st f l ⟨⟩
  refine ⟨by decide, by decide, ?_⟩
  rintro r ⟨⟩
  exact ⟨rfl, rfl⟩

/-- IdleStepGrantsOrCountsOnePeriod: the evaluator granted alone and at a wait count of 3; the executor at 4 and alone; neither, at the
last period of a millisecond with a DISABLED point, and with enabled points without and with a pulse in QUALIFYING. -/
theorem witness_idle_step :
    let at_ (q : List PassRecord) (n : Nat) : State :=
      { waiting { pointIn .idle with queue := q } .restart with port := { occupant := .free, left := 0, waitCount := n } }
    let last := { world (pointIn .idle) with cu := { Cu.reset with msPeriods := 79999 } }
    let pulse := world { scanning (.opened designA .forward passA) with tracker := .qualifying 7 1 }
    ((world { pointIn .idle with queue := [recordA] }).port.occupant = .free ∧
      ((world { pointIn .idle with queue := [recordA] }).point .mp0).queue ≠ [] ∧
      (∀ j, (world { pointIn .idle with queue := [recordA] }).req.executor ≠ .waiting j)) ∧
    ((at_ [recordA] 3).pending = [] ∧ (at_ [recordA] 3).cu.msPeriods < 80000 ∧ (at_ [recordA] 3).port.occupant = .free ∧
      ((at_ [recordA] 3).point .mp0).queue ≠ [] ∧ (at_ [recordA] 3).port.waitCount < 4) ∧
    ((at_ [recordA] 4).req.executor = .waiting .restart ∧ 4 ≤ (at_ [recordA] 4).port.waitCount) ∧
    ((at_ [] 0).port.occupant = .free ∧ (at_ [] 0).req.executor = .waiting .restart ∧ ((at_ [] 0).point .mp0).queue = [] ∧
      ((at_ [] 0).point .mp1).queue = []) ∧
    (last.pending = [] ∧ last.cu.msPeriods = 79999 ∧ (last.point .mp0).queue = [] ∧ (last.point .mp1).queue = [] ∧
      (∀ j, last.req.executor ≠ .waiting j) ∧ (last.point .mp1).state = .disabled ∧ (last.point .mp0).state ≠ .disabled ∧
      (last.point .mp0).tracker.inProgress = false) ∧
    (pulse.pending = [] ∧ pulse.cu.msPeriods < 80000 ∧ (pulse.point .mp0).queue = [] ∧ (pulse.point .mp1).queue = [] ∧
      (∀ j, pulse.req.executor ≠ .waiting j) ∧ (pulse.point .mp0).state ≠ .disabled ∧
      (pulse.point .mp0).tracker = .qualifying 7 1) := by
  refine ⟨⟨by decide, by decide, ?_⟩, by decide, by decide, by decide,
    ⟨by decide, by decide, by decide, by decide, ?_, by decide, by decide, by decide⟩,
    ⟨by decide, by decide, by decide, by decide, ?_, by decide, by decide⟩⟩ <;> rintro j ⟨⟩

/-- ArbiterGrantsByTheWaitCount: the four states of the port, at wait counts 3 and 4. -/
theorem witness_arbiter :
    let s (o : Occupant) (q : List PassRecord) (n : Nat) : State :=
      { waiting { pointIn .idle with queue := q } (.lookup .mp0 5) with port := { occupant := o, left := 0, waitCount := n } }
    (∀ o q n, (s o q n).req.executor = .waiting (.lookup .mp0 5)) ∧ (s .evaluator [] 0).port.occupant ≠ .free ∧
      ((s .free [recordA] 3).port.occupant = .free ∧ ((s .free [recordA] 3).point .mp0).queue ≠ [] ∧
        (s .free [recordA] 3).port.waitCount < 4) ∧
      ((s .free [recordA] 4).port.occupant = .free ∧ ((s .free [recordA] 4).point .mp0).queue ≠ [] ∧
        (s .free [recordA] 4).port.waitCount = 4) ∧
      ((s .free [] 0).port.occupant = .free ∧ ((s .free [] 0).point .mp0).queue = [] ∧
        ((s .free [] 0).point .mp1).queue = []) :=
  ⟨fun _ _ _ => rfl, by decide, by decide, by decide, by decide⟩

/-- OccupancyNumbersSumToAllSlots, RoundingIsToNearestHalvesAway (a tie), VelocityStaysBelowFortyMillion (the greatest
coefficients). -/
theorem witness_arithmetic :
    TableOk tableA ∧ ((0 : Int) < 2 ∧ 2 * |5 - 2 * roundDiv 5 2| = 2) ∧
      (live.ChannelsOk ∧ WInRange live.cu.activeW ∧ live.SampledOk ∧
        ∀ a, -2097152 ≤ (Axes.all (2097152 : Int)).get a ∧ (Axes.all (2097152 : Int)).get a ≤ 2097152) :=
  ⟨tableA_ok, by decide, live_channels, by unfold WInRange; decide, live_sampled, by decide⟩

/-- GoodSampleActsOnEveryChannel: good lines and a full history; OFF, LOST, not seeded; steps of 385 and 384; counts one step
beyond and at both ends of the range. -/
theorem witness_good_sample :
    let full := { tracking with history := List.replicate 16 384 }
    ((Axes.all true).get 0 = true ∧ full.history.length ≤ 16 ∧ full.state = .tracking ∧ full.lastPhase = some 0) ∧
      (Channel.reset.state = .off ∧ { tracking with state := .lost }.state = .lost ∧
        { tracking with state := .relative, lastPhase := none }.lastPhase = none) ∧
      384 < |stepOf false 0 385| ∧ |stepOf false 0 384| ≤ 384 ∧ |stepOf true 0 384| ≤ 384 ∧
      549755813887 < (549755813504 : Int) + stepOf false 0 384 ∧
      (549755813503 : Int) + stepOf false 0 384 ≤ 549755813887 ∧
      (-549755813504 : Int) + stepOf true 0 384 < -549755813887 ∧
      -549755813887 ≤ (-549755813503 : Int) + stepOf true 0 384 := by decide

/-- BadSampleHoldsOrLosesEveryChannel: SIGOK low; the four states; hold counters of D − 2 and D − 1 with D = 40. -/
theorem witness_bad_sample :
    let c := { tracking with hold := 38 }
    let e := { tracking with hold := 39 }
    (((Axes.all false).get 0 && true) = false) ∧
      (Channel.reset.state = .off ∧ { tracking with state := .lost }.state = .lost ∧
        { tracking with state := .relative, lastPhase := none }.lastPhase = none) ∧
      (c.state = .tracking ∧ c.lastPhase ≠ none ∧ c.hold + 1 < c.dropLimit) ∧
      (e.state = .tracking ∧ e.lastPhase ≠ none ∧ e.dropLimit ≤ e.hold + 1) := by decide

/-- SampleFormsEveryPosition, SampleHandsLossesThenUpdates. -/
theorem witness_sample :
    ((pointIn .scanning).state ≠ .disabled ∧ (pointIn .idle).state = .idle ∧ (pointIn .idle).passOpen = false ∧
      State.reset.points.mp0.state = .disabled ∧ State.reset.points.mp0.passOpen = false) ∧
    State.reset.cu.pendingSet = none := by decide

/-- SuspensionByLossOrRange: a loss of axis 0, with no pass open, and with one open and the queue with and without room; a
loss of another axis; a rounded X beyond the range. -/
theorem witness_suspension :
    let m (q : List PassRecord) := { scanning (.opened designA .forward passA) with queue := q }
    let wide := { (pointIn .halted).config with coeffs := ⟨2097152, 0, 0, 0, 0, 0⟩ }
    let chs := State.reset.channels.set 0 { tracking with count := 549755813887 }
    ((pointIn .halted).state = .halted ∧ (pointIn .halted).passOpen = false ∧
      ∃ a, (pointIn .halted).config.coeffs.get a ≠ 0 ∧ decide (a = (0 : Axis)) = true) ∧
    ((m [recordA]).state = .scanning ∧ (m [recordA]).cursor = .opened designA .forward passA ∧
      (m [recordA]).queue.length < 2 ∧ 2 ≤ (m [recordA, recordA]).queue.length) ∧
    ((pointIn .idle).state ≠ .scanning ∧ (pointIn .idle).state ≠ .halted) ∧
    (∀ a, (m []).config.coeffs.get a ≠ 0 → decide (a = (5 : Axis)) = false) ∧
    140737488355327 < |roundDiv (sumAxes fun a => wide.coeffs.get a * (chs.get a).position) 1048576| := by decide

/-- SeekDesignatesTheNearestEligibleAhead: key 5 ahead of X = −5000 and not yet armed, its trigger point reached with a lead of
10,000 and not with a lead of 3,999 (a lead of 4,000 reaches it exactly); armed already; none ahead; direction NONE. -/
theorem witness_seek :
    let m := { scanning .atEnd with x := -5000, scan := ⟨5, 5, 1⟩ }
    let plain := { itemA with trigger := false }
    (1 ≤ (⟨5, 5, 1⟩ : Scan).stride ∧ eligible m.scan itemA = true ∧ ahead .forward m.x itemA = true ∧
      itemA.lower ≤ itemA.upper ∧ m.direction = some .forward) ∧
    ((scanning (.armed designA .forward none)).cursor.sameArming itemA .forward = true ∧
      m.cursor.sameArming itemA .forward = false ∧ plain.trigger = false ∧ itemA.trigger = true) ∧
    (¬itemA.lower - 3999 ≤ m.x ∧ itemA.lower - 4000 ≤ m.x) ∧
    ((pointIn .scanning).direction = none ∧ ahead .forward (-1000) itemA = false) := by decide

/-- HandedEditSeeksAsTheTableSays: every row of the table. -/
theorem witness_handed_edit :
    let far := { scanning (.armed designA .forward none) with x := -5000, scan := ⟨0, 65535, 1⟩ }
    let near : IndexItem := { itemA with key := 4, lower := -4000, upper := -3000 }
    (pointIn .idle).state ≠ .scanning ∧ (scanning (.opened designA .forward passA)).passOpen = true ∧
      ((pointIn .scanning).direction = none) ∧
      ((scanning .atEnd).cursor = .atEnd ∧ (scanning .atEnd).direction = some .forward ∧
        eligible far.scan near = true ∧ ahead .forward far.x near = true) ∧
      (far.cursor = .armed designA .forward none ∧ far.direction = some .forward ∧ designA.key = 5 ∧ designA.key ≠ 4 ∧
        4 < designA.key) ∧
      (designA.key ≠ 6 ∧ designA.key < 6) := by decide

/-- UpdateInsideTheArmedWindowOpensIt, at both edges of the window, with a trigger point that fires and without one;
UpdateAcrossTheArmedWindowJumpsIt, one picometre beyond the far edge, with a trigger point that fires there and without one. -/
theorem witness_window_opens :
    let at_ (x : Int) (tr : Option TriggerPoint) := { scanning (.armed designA .forward tr) with x := x }
    let chs (x : Int) := State.reset.channels.set 0 { tracking with count := x, kc := 4294967296 }
    (∀ x ∈ [-1000, 1000, 1001],
      |roundDiv (sumAxes fun a => (at_ (-1001) none).config.coeffs.get a * ((chs x).get a).position) 1048576|
          ≤ 140737488355327 ∧
        ((at_ (-1001) none).formUpdate (chs x)).x = x ∧
        ((at_ (-1001) none).formUpdate (chs x)).direction = (at_ (-1001) none).direction) ∧
    (at_ (-1001) none).state = .scanning ∧ findSlot [itemA] designA.slot = some itemA ∧ designA.lower ≤ designA.upper ∧
      (-1000 ≤ ((at_ (-1001) none).formUpdate (chs 1001)).x ∧ (⟨-1000, false⟩ : TriggerPoint).fired = false) ∧
      designA.lower = -1000 ∧ designA.upper = 1000 ∧ (at_ (-1001) none).tracker.inProgress = false ∧
      ((at_ (-1001) (some ⟨-1000, false⟩)).cursor = .armed designA .forward (some ⟨-1000, false⟩)) := by decide

/-- UpdateShortOfAWindowOrTurning: inside an open window; short of an armed one, with a trigger point reached and one not; at END with
the direction kept, and in HALTED with X in range; and a first direction at END. -/
theorem witness_window_stays :
    let chs (x : Int) (v : Int) := State.reset.channels.set 0 { tracking with count := x, kc := 4294967296, history := [v] }
    let open_ := scanning (.opened designA .forward passA)
    let armed := scanning (.armed designA .forward (some ⟨-1001, false⟩))
    let still := { pointIn .scanning with cursor := .atEnd }
    (designA.lower ≤ (open_.formUpdate (chs 1000 0)).x ∧ (open_.formUpdate (chs 1000 0)).x ≤ designA.upper) ∧
      ((armed.formUpdate (chs (-1001) 0)).x < designA.lower ∧ -1001 ≤ (armed.formUpdate (chs (-1001) 0)).x ∧
        (armed.formUpdate (chs (-1002) 0)).x < -1001 ∧
        (armed.formUpdate (chs (-1001) 0)).direction = armed.direction) ∧
      ((still.formUpdate (chs 0 0)).direction = still.direction ∧ (pointIn .halted).state = .halted ∧
        |roundDiv (sumAxes fun a => still.config.coeffs.get a * ((chs 0 0).get a).position) 1048576| ≤ 140737488355327 ∧
        |roundDiv (sumAxes fun a => (pointIn .halted).config.coeffs.get a * ((chs 0 0).get a).position) 1048576|
          ≤ 140737488355327) ∧
      (still.cursor = .atEnd ∧ (still.formUpdate (chs 0 200)).direction = some .forward ∧
        still.direction ≠ some .forward ∧ still.state = .scanning) := by decide

/-- UpdateOutsideTheOpenWindowClosesThePass, one picometre beyond each edge; OutcomeIsTheFirstRowThatHolds. -/
theorem witness_window_closes :
    let m := scanning (.opened designA .forward { passA with tally := 1, firstX := some 9 })
    let chs (x : Int) := State.reset.channels.set 0 { tracking with count := x, kc := 4294967296 }
    m.state = .scanning ∧ designA.lower ≤ designA.upper ∧ ({ passA with tally := 1, firstX := some 9 }).firstX = some 9 ∧
      (m.formUpdate (chs (-1001))).x < designA.lower ∧ designA.upper < (m.formUpdate (chs 1001)).x ∧
      |roundDiv (sumAxes fun a => m.config.coeffs.get a * ((chs 1001).get a).position) 1048576| ≤ 140737488355327 := by
  decide

/-- LeadingEdgeIsStrayHeldOrLatched: every clause, at widths of 1 and 2 CLKIN periods. -/
theorem witness_leading_edge :
    let opened := scanning (.opened designA .forward passA)
    let width (n : Nat) := { opened.config with width := n }
    State.reset.points.mp0.state = .disabled ∧
      ({ opened with tracker := .settling }.tracker ≠ .noPulse ∧ opened.state ≠ .disabled) ∧
      ((pointIn .idle).tracker = .noPulse ∧ (pointIn .idle).passOpen = false) ∧
      (opened.tracker = .noPulse ∧ opened.cursor = .opened designA .forward passA) ∧
      (∃ a, opened.config.coeffs.get a ≠ 0 ∧ ((axisState { tracking with hold := 1 }).channels.get a).hold ≠ 0) ∧
      (∀ a, opened.config.coeffs.get a ≠ 0 → ((axisState tracking).channels.get a).hold = 0) ∧
      (opened.config.mode = .edgeRise ∧ (width 18).minPeriods ≤ 1 ∧ 2 ≤ (width 19).minPeriods) := by decide

/-- PulsesEndCompleteAndTrigger: every clause, at Wm − 1 and Wm periods with Wm = 8. -/
theorem witness_pulses_end :
    let opened := scanning (.opened designA .forward passA)
    let q := { opened with tracker := .qualifying 5 8, config := { opened.config with width := 100, mode := .centreLow } }
    State.reset.points.mp0.state = .disabled ∧ (opened.state ≠ .disabled ∧ opened.tracker = .noPulse) ∧
      { opened with tracker := .settling }.tracker = .settling ∧
      (q.tracker = .qualifying 5 8 ∧ 7 < q.config.minPeriods ∧ q.config.minPeriods ≤ 8 ∧
        q.cursor = .opened designA .forward passA ∧ q.config.mode = .centreLow) ∧
      (∃ a, q.config.coeffs.get a ≠ 0 ∧ ((axisState { tracking with hold := 1 }).channels.get a).hold ≠ 0) ∧
      (∀ a, q.config.coeffs.get a ≠ 0 → ((axisState tracking).channels.get a).hold = 0) ∧
      opened.config.mode = .edgeRise := by decide

/-- LatchIsDelayCorrected: τ = 0, and τ = 4000 with a full history of the greatest steps. -/
theorem witness_latch :
    (pointIn .idle).config.tau = 0 ∧ 4000 ≤ 4000 ∧ (List.replicate 16 (384 : Int)).length ≤ 16 ∧
      ∀ d ∈ List.replicate 16 (384 : Int), -384 ≤ d ∧ d ≤ 384 := by decide

/-- CommitMakesThePendingSetActive, ExaminationDecidesTheCommit: a pending set, no pass open and one open; commit hold; an HP
commit; an opportunistic commit; neither. -/
theorem witness_commit :
    let pending (debt : Nat) (m : MeasuringPoint) : State :=
      { world m with cu := { Cu.reset with pendingSet := some { w := .all 7, generation := 3 }, debt := debt } }
    let armed := { scanning (.armed designA .forward none) with x := -5000 }
    let opened := scanning (.opened designA .forward passA)
    (State.reset.cu.pendingSet = none ∧ (pending 0 opened).cu.pendingSet = some { w := .all 7, generation := 3 } ∧
      ((pending 0 opened).point .mp0).cursor = .opened designA .forward passA ∧
      ((pending 0 opened).point .mp1).passOpen = false) ∧
    { Cu.reset with commitHold := true }.commitHold = true ∧
    ((pending 4 armed).cu.commitHold = false ∧ (pending 4 armed).cu.hpMark ≤ (pending 4 armed).cu.debt ∧
      ((pending 4 armed).point .mp0).quiet = true ∧ ((pending 4 armed).point .mp1).quiet = true) ∧
    (¬(pending 3 (pointIn .idle)).cu.hpMark ≤ (pending 3 (pointIn .idle)).cu.debt ∧
      ((pending 3 (pointIn .idle)).point .mp0).guardClear 20000000 = true ∧
      ((pending 3 (pointIn .idle)).point .mp1).guardClear 20000000 = true) ∧
    (armed.guardClear 3999 = true ∧ armed.guardClear 4000 = false) := by decide

/-- TickReducesTheCountOrExpires: counts 1 and 0, the enable set and clear; an age that reaches the stale limit 120, one that
does not, and a flag already set. -/
theorem witness_tick :
    let cu (n age : Nat) : Cu := { Cu.reset with timerEnable := true, timerCount := n, age := age }
    ((cu 1 0).timerEnable = true ∧ 0 < (cu 1 0).timerCount ∧ (cu 0 0).timerCount = 0 ∧ Cu.reset.timerEnable = false) ∧
      ((cu 0 119).staleLimit ≤ min 255 ((cu 0 119).age + 1) ∧ (cu 0 119).stale = false) ∧
      ¬(cu 0 118).staleLimit ≤ min 255 ((cu 0 118).age + 1) := by decide

/-- SupplyMediumCreatesOrMerges: masks 0 and 63, a W at the end of the range and one beyond it. -/
theorem witness_supply :
    State.reset.TakesRequests ∧ (0 : Byte).toNat < 64 ∧ (63 : Byte).toNat < 64 ∧
      (∀ a : Axis, max (-20000000) (min 20000000 ((Axes.all (20000000 : BitVec 32)).get a).toInt) =
        ((Axes.all (20000000 : BitVec 32)).get a).toInt) ∧
      ∃ a : Axis, (63 : Byte).getLsbD a.val = true ∧
        max (-20000000) (min 20000000 ((Axes.all (20000001 : BitVec 32)).get a).toInt) ≠
          ((Axes.all (20000001 : BitVec 32)).get a).toInt := by decide

/-- SchedulingRequestsWriteTheirSettings: an age at the new stale limit and one below it; a pending set and none. -/
theorem witness_scheduling :
    let s (age : Nat) : State :=
      { State.reset with cu := { Cu.reset with age := age, pendingSet := some { w := .all 0, generation := 1 }, debt := 5 } }
    (s 0).TakesRequests ∧ (max 1 (1 : Byte).toNat ≤ (s 1).cu.age ∧ (s 1).cu.stale = false) ∧
      ¬max 1 (1 : Byte).toNat ≤ (s 0).cu.age ∧
      (s 0).cu.pendingSet = some { w := .all 0, generation := 1 } ∧ State.reset.cu.pendingSet = none := by decide

/-- No axis of a part after power-on is in use. -/
theorem reset_axes_free (a : Axis) : ∀ p, (State.reset.point p).state = .scanning ∨ (State.reset.point p).state = .halted →
    (State.reset.point p).config.coeffs.get a = 0 := by
  intro p h
  cases p <;> simp [State.reset, State.point, Pair.get, MeasuringPoint.reset] at h

/-- ConfigureAxisWritesFitsAndUnfits: an axis OFF and one fitted, λ at both ends of its range, both folds. -/
theorem witness_configure_axis :
    State.reset.TakesRequests ∧ (3 : Byte).toNat = (3 : Axis).val ∧ 400000000 ≤ (400000000 : BitVec 32).toNat ∧
      (1100000000 : BitVec 32).toNat ≤ 1100000000 ∧ (1 : Byte).toNat = 1 ∧ (2 : Byte).toNat = 2 ∧
      (State.reset.channels.get 3).state = .off ∧ ((axisState tracking).channels.get 0).state ≠ .off ∧
      (∀ p, (State.reset.point p).state = .scanning ∨ (State.reset.point p).state = .halted →
        (State.reset.point p).config.coeffs.get 3 = 0) :=
  ⟨by decide, by decide, by decide, by decide, by decide, by decide, by decide, by decide, reset_axes_free 3⟩

/-- PresetAxisAndReadAxes: a seeded axis with both levels high, values at both ends of the count range. -/
theorem witness_preset_axis :
    let s := axisState tracking
    s.TakesRequests ∧ (0 : Byte).toNat = (0 : Axis).val ∧ -549755813887 ≤ (-549755813887 : BitVec 48).toInt ∧
      (549755813887 : BitVec 48).toInt ≤ 549755813887 ∧ (s.channels.get 0).state ≠ .off ∧
      (s.channels.get 0).sigok = true ∧ s.refok = true ∧ (s.channels.get 0).lastPhase ≠ none ∧
      s.lostNow.get 0 = false ∧ ∀ p, (s.point p).state = .scanning ∨ (s.point p).state = .halted → (s.point p).config.coeffs.get 0 = 0 :=
  ⟨by decide, by decide, by decide, by decide, by decide, by decide, by decide, by decide, by decide, reset_axes_free 0⟩

/-- RecordsAreLaidOut. -/
theorem witness_reading : { tracking with hold := 255, dropouts := 255 }.hold ≤ 255 ∧ Channel.reset.dropouts ≤ 255 := by
  decide

/-- ConfigurePointWritesAndEnables: both coefficients at the ends of their range on a fitted axis, enabled and not, from DISABLED
and from IDLE, every mode. -/
theorem witness_configure_point :
    let c (v : BitVec 32) : Axes (BitVec 32) := ⟨v, 0, 0, 0, 0, 0⟩
    (axisState tracking).TakesRequests ∧ ((axisState tracking).point .mp0).state = .disabled ∧
      ((world (pointIn .idle)).point .mp0).state = .idle ∧ (0 : Byte).toNat = (if Point.mp0 = .mp0 then 0 else 1) ∧
      (1 : Byte).toNat = (if Point.mp1 = .mp0 then 0 else 1) ∧ (3 : Byte).toNat = 3 ∧
      (∀ a, -2097152 ≤ ((c (-2097152)).get a).toInt ∧ ((c 2097152).get a).toInt ≤ 2097152) ∧
      (∃ a, ((c 2097152).get a).toInt ≠ 0) ∧
      ∀ a, ((c 2097152).get a).toInt ≠ 0 → ((axisState tracking).channels.get a).state ≠ .off := by decide

/-- ScansStartStopAndResume: a range of one key on an IDLE point with its axis TRACKING; a HALTED point; SCANNING and SUSPENDED ones
to stop, with a pass open and the queue with and without room. -/
theorem witness_scans :
    let opened (q : List PassRecord) := { scanning (.opened designA .forward passA) with queue := q }
    (world (pointIn .idle)).TakesRequests ∧ (5 : BitVec 16).toNat ≤ (5 : BitVec 16).toNat ∧
      ((world (pointIn .idle)).point .mp0).state = .idle ∧
      (∀ a, ((world (pointIn .idle)).point .mp0).config.coeffs.get a ≠ 0 →
        ((world (pointIn .idle)).channels.get a).state = .tracking) ∧
      ((world (pointIn .halted)).point .mp0).state = .halted ∧
      ((world (pointIn .suspended)).point .mp0).state = .suspended ∧ (pointIn .suspended).passOpen = false ∧
      ((world (opened [recordA])).point .mp0).cursor = .opened designA .forward passA ∧
      (opened [recordA]).queue.length < 2 ∧ 2 ≤ (opened [recordA, recordA]).queue.length := by decide

/-- ReadStatusReportsThenClears, NoticesAreTakenAndRouted, TableRequestsAskForTheirAccess: an IDLE link, the two clear options,
masks up to 1023, nominals at both ends of the range, equal keys. -/
theorem witness_port_requests :
    State.reset.TakesRequests ∧ (0 : Byte).toNat = 0 ∧ (1 : Byte).toNat = 1 ∧ (1023 : BitVec 16).toNat < 1024 ∧
      -140737488355327 ≤ (-140737488355327 : BitVec 48).toInt ∧ (140737488355327 : BitVec 48).toInt ≤ 140737488355327 ∧
      (9 : BitVec 16).toNat ≤ (9 : BitVec 16).toNat ∧ (0 : Byte).toNat = (if Point.mp0 = .mp0 then 0 else 1) := by decide

/-- RefusedAxisAndPointRequests: the least value that each check refuses, and the states that the later checks refuse. -/
theorem witness_refused_axis_and_point :
    let scan := world (pointIn .scanning)
    let c (v : BitVec 32) : Axes (BitVec 32) := ⟨v, 0, 0, 0, 0, 0⟩
    (scan.TakesRequests ∧ 5 < (6 : Byte).toNat ∧ (399999999 : BitVec 32).toNat < 400000000 ∧
      1100000000 < (1100000001 : BitVec 32).toNat ∧ 2 < (3 : Byte).toNat ∧
      549755813887 < (549755813888 : BitVec 48).toInt ∧ (-549755813888 : BitVec 48).toInt < -549755813887 ∧
      64 ≤ (64 : Byte).toNat ∧ 3 < (4 : Byte).toNat ∧ 2097152 < ((c 2097153).get 0).toInt ∧
      ((c (-2097153)).get 0).toInt < -2097152 ∧ ∀ a, ((c 0).get a).toInt = 0) ∧
    ((scan.point .mp0).state = .scanning ∧ (scan.point .mp0).config.coeffs.get 0 ≠ 0) ∧
    ((scan.channels.get 0).state ≠ .off ∧ (scan.channels.get 0).sigok = true ∧ scan.refok = true ∧
      (scan.channels.get 0).lastPhase ≠ none ∧ scan.lostNow.get 0 = false) ∧
    ((State.reset.channels.get 0).state = .off ∧ (State.reset.point .mp0).state = .disabled ∧
      ((c 1).get 0).toInt ≠ 0) := by decide

/-- RefusedScanTableAndPortRequests. -/
theorem witness_refused_scan_table_and_port :
    (State.reset.TakesRequests ∧ 1 < (2 : Byte).toNat ∧ (4 : BitVec 16).toNat < (5 : BitVec 16).toNat ∧
      (-140737488355328 : BitVec 48).toInt < -140737488355327 ∧ 1024 ≤ (1024 : BitVec 16).toNat) ∧
    ((State.reset.point .mp0).state ≠ .idle ∧ (State.reset.point .mp0).state = .disabled ∧
      (State.reset.point .mp0).state ≠ .halted) ∧
    (let s := { world (pointIn .idle) with channels := State.reset.channels }
     (s.point .mp0).state = .idle ∧ ∃ a, (s.point .mp0).config.coeffs.get a ≠ 0 ∧ (s.channels.get a).state ≠ .tracking) := by
  decide

/-- DiscardedFramesAreFlaggedAndCounted: bits of an incomplete byte; each judgement, by a frame with and without later bits; a busy link
and an idle one; a status read; an ignored transaction. -/
theorem witness_discarded_frames :
    (7 < 8 ∧ [true, true, true].length < 8) ∧
    (encodeFrame .restart = some (bitsOf [0x3F, 0]) ∧ isFetch .restart = false ∧
      (waiting (pointIn .idle) .restart).req.link ≠ .idle ∧ (waiting (pointIn .idle) .restart).req.transfer ≠ .ignored) ∧
    (requestLength (0x40 : Byte).toNat = none ∧ requestLength (0x31 : Byte).toNat = some 2 ∧ (3 : Byte).toNat ≠ 2 ∧
      (2 : Byte).toNat = 2 ∧ [(0 : Byte)].length < 2 ∧ 2 ≤ [(0 : Byte), 0].length ∧ (0x31 : Byte).toNat ≠ 0) ∧
    (judgeFrame (bitsOf [0x40, 0]) = .malformed ∧ judgeFrame (bitsOf [0x31, 2, 0]) = .short ∧
      judgeFrame (bitsOf [0x3F, 0, 0xFF]) = .request .restart ∧ judgeFrame (bitsOf [0, 0] ++ [true]) = .request (.fetch (.rise [true])) ∧
      isFetch (.fetch (.rise [true])) = true ∧ (List.replicate 15 true).length < 16 ∧ State.reset.req.link = .idle) ∧
    (runs [.fetch .fall, .powerOnReset] State.reset).req.transfer = .ignored := by decide

/-- FetchDeliversTheWaitingFrame: CS_N high and low; an L byte that finds a response and one that finds none; five bytes of framing
clocked whole, one edge fewer, and no response; the answer decided at the L byte. FramesReadBackTheirRequests: FETCH and another. -/
theorem witness_fetch_and_frames :
    let r : Response := { status := .ok, data := [] }
    let q (t : Transfer) : RequestPort := { State.reset.req with link := .ready, slot := some r, transfer := t }
    ((q .high).transfer = .high ∧ (q (.low 2 .undecided [true])).transfer = .low 2 .undecided [true] ∧
      (q .high).link = .ready ∧ (q .high).slot = some r ∧ State.reset.req.link ≠ .ready) ∧
    (8 * (5 + r.data.length) ≤ 16 + (List.replicate 23 false).length + [true].length ∧
      16 + (List.replicate 23 false).length + ([] : List Bool).length < 8 * (5 + r.data.length)) ∧
    ((q (.low 1 (.delivers r) [])).transfer = .low 1 (.delivers r) [] ∧ (q (.low 1 .notReady [])).transfer ≠ .ignored) ∧
    ((Instr.fetch (.rise [true])).wellFormed = true ∧ encodeFrame (.fetch (.rise [true])) = some (bitsOf [0, 0] ++ [true]) ∧
      Instr.restart.wellFormed = true ∧ encodeFrame .restart = some (bitsOf [0x3F, 0]) ∧ isFetch .restart = false) := by
  decide

/-- A link that is IDLE with CS_N high takes requests, and so does one in a transaction with bits after the frame. -/
theorem witness_takes_requests :
    State.reset.TakesRequests ∧ (runs [.fetch .fall, .fetch (.runOn [true])] State.reset).TakesRequests ∧
      (world (pointIn .idle)).TakesRequests := by decide

/-- The neighbours of key 4 and of key 6 in the index of `tableA`. -/
theorem itemA_orders (lower upper : Int) :
    (upper < -1000 → PassesOrder [itemA] 4 lower upper) ∧ (-1000 ≤ upper → ¬PassesOrder [itemA] 4 lower upper) := by
  refine ⟨fun h => ⟨by rintro it ⟨⟩, by rintro it ⟨⟩; exact h⟩, fun h hp => ?_⟩
  have := hp.2 itemA rfl
  have e : itemA.lower = -1000 := by decide
  omega

/-- LoadAccessInsertsTheEntry: key 4, one picometre below key 5's window, into slot 1; AmendAndClearAccessesRewriteTheEntry: key 5. -/
theorem witness_load_amend_clear :
    (let s := waiting (pointIn .idle) (.load .mp0 4 (-3001) 2000 false false false)
     TableOk s.table ∧ s.Grants (.load .mp0 4 (-3001) 2000 false false false) ∧ (∀ it ∈ s.index .mp0, it.key ≠ 4) ∧
       (1 < 2048 ∧ (s.table.slot 1).entry = none ∧ ∀ m, m < 1 → (s.table.slot m).entry ≠ none) ∧
       PassesOrder (s.index .mp0) 4 (-3001 - (2000 : Nat)) (-3001 + (2000 : Nat)) ∧
       PassesInWindow (s.point .mp0) (-3001 - (2000 : Nat)) (-3001 + (2000 : Nat))) ∧
    (let s := waiting (pointIn .idle) (.amend .mp0 5 7 1000 true false false)
     TableOk s.table ∧ s.Grants (.amend .mp0 5 7 1000 true false false) ∧ itemA ∈ s.index .mp0 ∧ itemA.key = 5 ∧
       (s.table.slot itemA.slot).entry = some entryA ∧
       (∀ d dir r, (s.point .mp0).cursor = .opened d dir r → d.slot ≠ itemA.slot) ∧
       PassesOrder (s.index .mp0) 5 (7 - (1000 : Nat)) (7 + (1000 : Nat)) ∧
       PassesInWindow (s.point .mp0) (7 - (1000 : Nat)) (7 + (1000 : Nat))) ∧
    (let s := waiting (pointIn .idle) (.clear .mp0 5)
     TableOk s.table ∧ s.Grants (.clear .mp0 5) ∧ itemA ∈ s.index .mp0 ∧ (s.table.slot itemA.slot).entry = some entryA) := by
  refine ⟨⟨tableA_ok, by unfold State.Grants; decide, by decide, by decide, (itemA_orders _ _).1 (by decide), ?_⟩,
    ⟨tableA_ok, by unfold State.Grants; decide, by decide, by decide, by decide, ?_, ?_, ?_⟩,
    ⟨tableA_ok, by unfold State.Grants; decide, by decide, by decide⟩⟩
  · intro h; exact absurd h (by decide)
  · rintro d dir r ⟨⟩
  · exact ⟨by rintro it ⟨⟩, by rintro it ⟨⟩⟩
  · intro h; exact absurd h (by decide)

/-- RetireStepFreesOrSkips: no live entry in the range; key 5, at both ends of the range at once, OPEN and not. -/
theorem witness_retire :
    (let s := waiting (pointIn .idle) (.retire .mp0 6 9 0 0)
     TableOk s.table ∧ s.Grants (.retire .mp0 6 9 0 0) ∧ ∀ o ∈ s.index .mp0, ¬(6 ≤ o.key ∧ o.key ≤ 9)) ∧
    (let s := waiting (scanning (.opened designA .forward passA)) (.retire .mp0 5 5 0 0)
     TableOk s.table ∧ s.Grants (.retire .mp0 5 5 0 0) ∧ itemA ∈ s.index .mp0 ∧ 5 ≤ itemA.key ∧ itemA.key ≤ 5 ∧
       (∀ o ∈ s.index .mp0, 5 ≤ o.key → itemA.key ≤ o.key) ∧
       (s.point .mp0).cursor = .opened designA .forward passA ∧ designA.slot = itemA.slot) ∧
    (let s := waiting (pointIn .idle) (.retire .mp0 5 5 0 0)
     TableOk s.table ∧ s.Grants (.retire .mp0 5 5 0 0) ∧ itemA ∈ s.index .mp0 ∧
       ∀ d dir r, (s.point .mp0).cursor = .opened d dir r → d.slot ≠ itemA.slot) :=
  ⟨⟨tableA_ok, by unfold State.Grants; decide, by decide⟩,
    ⟨tableA_ok, by unfold State.Grants; decide, by decide, by decide, by decide, by decide, by decide, by decide⟩,
    ⟨tableA_ok, by unfold State.Grants; decide, by decide, by rintro d dir r ⟨⟩⟩⟩

/-- LookupAndSweepCopyRecords: key 5 looked up; a sweep that starts above it, and one that reaches it with a seventh and with no
further copy. -/
theorem witness_lookup_sweep :
    (let s := waiting (pointIn .idle) (.lookup .mp0 5)
     TableOk s.table ∧ s.Grants (.lookup .mp0 5) ∧ itemA ∈ s.index .mp0 ∧ (s.table.slot itemA.slot).entry = some entryA ∧
       itemA.key = 5) ∧
    (let s := waiting (pointIn .idle) (.sweep .mp0 6 0 [])
     s.Grants (.sweep .mp0 6 0 []) ∧ ∀ o ∈ s.index .mp0, 6 ≤ o.key → 65535 < o.key) ∧
    (let s := waiting (pointIn .idle) (.sweep .mp0 5 7 [])
     s.Grants (.sweep .mp0 5 7 []) ∧ itemA ∈ s.index .mp0 ∧ 5 ≤ itemA.key ∧ itemA.key ≤ 65535 ∧
       (∀ o ∈ s.index .mp0, 5 ≤ o.key → itemA.key ≤ o.key) ∧ 8 ≤ 7 + 1 ∧
       ∀ o ∈ s.index .mp0, itemA.key < o.key → 65535 < o.key) :=
  ⟨⟨tableA_ok, by unfold State.Grants; decide, by decide, by decide, by decide⟩,
    ⟨by unfold State.Grants; decide, by decide⟩,
    ⟨by unfold State.Grants; decide, by decide, by decide, by decide, by decide, by decide, by decide⟩⟩

/-- Two entries of MP0, keys 5 and 7, for the sweep that goes on. -/
def tableB : LineTable := (State.insertEntry { State.reset with table := tableA } 1 (newEntry .mp0 7 9000 1000 false false)).table

theorem tableB_slot (n : Nat) : tableB.slot n =
    if n = 0 then { revision := 1, entry := some entryA }
    else if n = 1 then { revision := 1, entry := some (newEntry .mp0 7 9000 1000 false false) } else Slot.blank := by
  have e : tableB.slots = [(0, { revision := 1, entry := some entryA }),
    (1, { revision := 1, entry := some (newEntry .mp0 7 9000 1000 false false) })] := by decide
  simp [LineTable.slot, e, slotGet]

theorem tableB_index (p : Point) : tableB.index.get p =
    if p = .mp0 then [itemA, indexItem 1 1 (newEntry .mp0 7 9000 1000 false false)] else [] := by
  cases p <;> decide

theorem tableB_ok : TableOk tableB where
  slots := by
    have e : tableB.slots = [(0, { revision := 1, entry := some entryA }),
      (1, { revision := 1, entry := some (newEntry .mp0 7 9000 1000 false false) })] := by decide
    rw [e]
    exact ⟨by simp, by simp, by simp [Slot.blank], by simp⟩
  definitions := by
    intro n e h
    rw [tableB_slot] at h
    split at h
    · cases h
      exact ⟨by decide, by unfold InPositionRange; decide, by decide⟩
    · split at h
      · cases h
        exact ⟨by decide, by unfold InPositionRange; decide, by decide⟩
      · cases h
  ordered := by
    intro p
    rw [tableB_index]
    cases p
    · unfold IndexOrdered; decide
    · unfold IndexOrdered; decide
  listed := by
    intro p it h
    rw [tableB_index] at h
    cases p with
    | mp0 =>
      simp only [if_true, List.mem_cons, List.not_mem_nil, or_false] at h
      rcases h with rfl | rfl
      · exact ⟨entryA, by decide, rfl, by decide⟩
      · exact ⟨newEntry .mp0 7 9000 1000 false false, by decide, rfl, by decide⟩
    | mp1 => simp at h
  complete := by
    intro n e h
    rw [tableB_slot] at h ⊢
    rw [tableB_index]
    split at h
    · cases h
      rename_i hn
      subst hn
      decide
    · split at h
      · cases h
        rename_i hn
        subst hn
        decide
      · cases h

/-- LookupAndSweepCopyRecords: a sweep that copies key 5 and goes on to key 7; RetireStepFreesOrSkips: a range with key 7 left. -/
theorem witness_sweep_goes_on :
    let s (j : Job) := { waiting (pointIn .idle) j with table := tableB }
    TableOk (s (.sweep .mp0 5 6 [])).table ∧ (s (.sweep .mp0 5 6 [])).Grants (.sweep .mp0 5 6 []) ∧
      itemA ∈ (s (.sweep .mp0 5 6 [])).index .mp0 ∧ 6 + 1 < 8 ∧
      (∃ o ∈ (s (.sweep .mp0 5 6 [])).index .mp0, itemA.key < o.key ∧ o.key ≤ 65535) ∧
      ∀ o ∈ (s (.sweep .mp0 5 6 [])).index .mp0, 5 ≤ o.key → itemA.key ≤ o.key :=
  ⟨tableB_ok, by unfold State.Grants; decide, by decide, by decide, by decide, by decide⟩

/-- RefusedAccessesChangeNothing: EXISTS, NO_ENTRY, ENTRY_OPEN, ORDER (edges that touch) and IN_WINDOW (X on the edge). -/
theorem witness_refused_accesses :
    let m := { pointIn .scanning with x := -1001 }
    let load4 : Job := .load .mp0 4 (-2001) 1000 false false false
    let amend5 : Job := .amend .mp0 5 7 1000 false false false
    (TableOk (waiting m load4).table ∧ (waiting m load4).Grants load4 ∧
      (∀ it ∈ (waiting m load4).index .mp0, it.key ≠ 4) ∧ ((waiting m load4).table.slot 2047).entry = none ∧
      (∃ it ∈ (waiting m load4).index .mp0, it.key = 5) ∧
      ¬PassesOrder ((waiting m load4).index .mp0) 4 (-2000 - (1000 : Nat)) (-2000 + (1000 : Nat)) ∧
      PassesOrder ((waiting m load4).index .mp0) 4 (-2001 - (1000 : Nat)) (-2001 + (1000 : Nat)) ∧
      ¬PassesInWindow ((waiting m load4).point .mp0) (-2001 - (1000 : Nat)) (-2001 + (1000 : Nat))) ∧
    ((waiting (scanning (.opened designA .forward passA)) amend5).Grants amend5 ∧
      ((waiting (scanning (.opened designA .forward passA)) amend5).point .mp0).cursor = .opened designA .forward passA ∧
      designA.slot = itemA.slot) ∧
    ((waiting m (.clear .mp0 6)).Grants (.clear .mp0 6) ∧ (waiting m (.lookup .mp0 6)).Grants (.lookup .mp0 6) ∧
      ∀ it ∈ (waiting m (.clear .mp0 6)).index .mp0, it.key ≠ 6) := by
  refine ⟨⟨tableA_ok, by unfold State.Grants; decide, by decide, by decide, by decide, (itemA_orders _ _).2 (by decide),
    (itemA_orders _ _).1 (by decide), ?_⟩, ⟨by unfold State.Grants; decide, by decide, by decide⟩,
    ⟨by unfold State.Grants; decide, by unfold State.Grants; decide, by decide⟩⟩
  unfold PassesInWindow
  decide

/-- Slot `n` of the full table below. -/
def fullSlot (n : Nat) : Slot := { revision := 1, entry := some (newEntry .mp0 n (n * 3000) 1000 false false) }

/-- A full table: 2048 entries of MP0 with keys 0 to 2047. -/
def fullTable : LineTable :=
  { slots := (List.range' 0 2048).map fun n => (n, fullSlot n)
    index :=
      { mp0 := (List.range' 0 2048).map fun n => indexItem n 1 (newEntry .mp0 n (n * 3000) 1000 false false), mp1 := [] } }

theorem slotGet_range (f : Nat → Slot) (k a n : Nat) :
    slotGet ((List.range' a k).map fun m => (m, f m)) n = if a ≤ n ∧ n < a + k then f n else Slot.blank := by
  induction k generalizing a with
  | zero =>
    rw [if_neg (by omega)]
    rfl
  | succ k ih =>
    simp only [List.range'_succ, List.map_cons, slotGet, ih]
    by_cases h : n = a
    · subst h; simp
    · simp only [h, if_false]
      congr 1
      simp only [eq_iff_iff]
      omega

theorem fullTable_slot (n : Nat) : fullTable.slot n = if n < 2048 then fullSlot n else Slot.blank := by
  simp [LineTable.slot, fullTable, slotGet_range]

theorem fullTable_ok : TableOk fullTable where
  slots := by
    refine ⟨?_, ?_, ?_, ?_⟩
    · simp only [fullTable, List.pairwise_map]
      exact List.pairwise_lt_range'
    · simp [fullTable]
    · simp [fullTable, fullSlot, Slot.blank]
    · simp [fullTable, fullSlot]
  definitions := by
    intro n e h
    rw [fullTable_slot] at h
    split at h
    · cases h
      refine ⟨?_, ⟨?_, ?_⟩, Nat.le_refl 1000, (by decide : 1000 ≤ 1000000000)⟩ <;> simp only [newEntry, Config.posMax] <;> omega
    · cases h
  ordered := by
    intro p
    cases p
    · simp only [fullTable, Pair.get, IndexOrdered, List.pairwise_map]
      refine List.Pairwise.imp ?_ List.pairwise_lt_range'
      intro a b h
      simp only [indexItem, newEntry, Entry.lower, Entry.upper]
      omega
    · exact List.Pairwise.nil
  listed := by
    intro p it h
    cases p with
    | mp0 =>
      simp only [fullTable, Pair.get, List.mem_map, List.mem_range'_1] at h
      obtain ⟨n, hn, rfl⟩ := h
      refine ⟨newEntry .mp0 n (n * 3000) 1000 false false, ?_, rfl, ?_⟩ <;>
        simp [indexItem, fullTable_slot, fullSlot, show n < 2048 by omega]
    | mp1 => simp [fullTable, Pair.get] at h
  complete := by
    intro n e h
    rw [fullTable_slot] at h ⊢
    split at h
    · cases h
      rename_i hn
      simp only [if_pos hn, fullTable, Pair.get, newEntry, List.mem_map, List.mem_range'_1]
      exact ⟨n, by omega, rfl⟩
    · cases h

/-- RefusedAccessesChangeNothing, FULL: the key is new and no slot is FREE. -/
theorem witness_full :
    let s := { waiting (pointIn .idle) (.load .mp0 5000 0 1000 false false false) with table := fullTable }
    TableOk s.table ∧ s.Grants (.load .mp0 5000 0 1000 false false false) ∧ (∀ it ∈ s.index .mp0, it.key ≠ 5000) ∧
      ∀ n, n < 2048 → (s.table.slot n).entry ≠ none := by
  refine ⟨fullTable_ok, by unfold State.Grants; decide, ?_, ?_⟩
  · intro it h
    simp only [State.index, fullTable, Pair.get, List.mem_map, List.mem_range'_1] at h
    obtain ⟨n, hn, rfl⟩ := h
    simp only [indexItem, newEntry]
    omega
  · intro n hn
    show (fullTable.slot n).entry ≠ none
    simp [fullTable_slot, hn, fullSlot]

/-- RestartAccessEmptiesTheTable, CompletionsFreeThePort, EvaluatorAppliesOrOrphansTheOldest: the chosen queue the pointer's and
the other's; a record that passes and one of another revision. -/
theorem witness_restart_completion_evaluator :
    ((waiting (pointIn .idle) .restart).Grants .restart) ∧
    (live.port.occupant = .evaluator ∧
      (Executor.accessing (.ask .restart) = .accessing (.ask .restart))) ∧
    (let s (at_ : Point) := { world { pointIn .idle with queue := [recordA] } with pointer := at_ }
     ((s .mp0).port.occupant = .free ∧ (s .mp0).executorRequests = false ∧ (s .mp0).pointer = .mp0 ∧
       ((s .mp0).point .mp0).queue = [recordA]) ∧
     (Point.mp0 = (s .mp1).pointer.other ∧ ((s .mp1).point (s .mp1).pointer).queue = []) ∧
     (s .mp0).table.slot recordA.slot = { revision := recordA.revision, entry := some entryA } ∧
     ((s .mp0).table.slot 0).revision ≠ { recordA with revision := 9 }.revision) := by
  refine ⟨by unfold State.Grants; decide, by decide, by decide⟩

/-- AppliedRecordsReachTheResults: counts of 65534 and 65535, with extremes and without. DerivedValuesAreMeanSpreadAndReversal. -/
theorem witness_results :
    let d (n : Nat) : DirStats := { n := n, sum := n, extremes := some { min := 1, max := 1 } }
    ({ recordA with outcome := .matched 4 }.outcome = .matched 4 ∧ 65535 ≤ (d 65535).n ∧ (d 65534).n < 65535 ∧
      Results.load.forward.extremes = none ∧ (d 65534).extremes = some { min := 1, max := 1 }) ∧
    (recordA.outcome = .missed ∧ ∀ x, recordA.outcome ≠ .matched x) ∧
    (StatsOk (d 2) ∧ 0 < (d 2).n ∧ Results.load.forward.n = 0 ∧
      ResultsOk { Results.load with forward := d 2, reverse := d 1 } ∧ (d 2).mean = some 1) := by
  refine ⟨by decide, ⟨by decide, by rintro x ⟨⟩⟩, ⟨by decide, by decide, ?_⟩, by decide, by decide,
    ⟨⟨by decide, by decide, ?_⟩, ⟨by decide, by decide, ?_⟩, by decide, by decide, by decide, by rintro v ⟨⟩⟩, by decide⟩
  all_goals exact fun _ => ⟨_, rfl, by decide⟩

end Sys2Proof.Tests
end

/-! The rounding rule of 00_scope.md (R1). -/

namespace Sys2Proof.Proofs.Scope

open Sys2Proof.Machine

/-! ### Which half-way quotients `roundDiv` can give -/

/-- Rounding a negative value is rounding its magnitude, with the sign put back. -/
theorem roundDiv_of_neg {n : Int} (d : Int) (hn : n < 0) : roundDiv n d = -roundDiv (-n) d := by
  have hn' : ¬ 0 ≤ n := by omega
  have hneg : 0 ≤ -n := by omega
  simp only [roundDiv, if_neg hn', if_pos hneg]

/-- From 0 upwards the lower bound of `roundDiv_bounds` is strict: a half is never rounded down. -/
theorem roundDiv_gt_of_nonneg {n d : Int} (hd : 0 < d) (hn : 0 ≤ n) : 2 * n - d < 2 * (d * roundDiv n d) := by
  have hlt : 2 * n + d < (roundDiv n d + 1) * (2 * d) := by
    simpa only [roundDiv, if_pos hn] using Int.lt_ediv_add_one_mul_self (2 * n + d) (show 0 < 2 * d by omega)
  linarith

/-- Below 0 the upper bound of `roundDiv_bounds` is strict: a half is never rounded up. -/
theorem roundDiv_lt_of_neg {n d : Int} (hd : 0 < d) (hn : n < 0) : 2 * (d * roundDiv n d) < 2 * n + d := by
  have hmag := roundDiv_gt_of_nonneg hd (show 0 ≤ -n by omega)
  rw [roundDiv_of_neg d hn, mul_neg]
  omega

/-! ### The two halves of the rule -/

theorem roundDiv_nearest (n : Int) {d : Int} (hd : 0 < d) : 2 * |n - d * roundDiv n d| ≤ d := by
  obtain ⟨upper, lower⟩ := roundDiv_bounds n d hd
  have habs : |2 * (n - d * roundDiv n d)| ≤ d := abs_le.mpr ⟨by omega, by omega⟩
  rwa [abs_mul, abs_two] at habs

/-- At a tie the strict bound on `n`'s side of 0 leaves only the quotient half a divisor farther out. -/
theorem roundDiv_tie_away {n d : Int} (hd : 0 < d) (tie : 2 * |n - d * roundDiv n d| = d) :
    |n| < |d * roundDiv n d| := by
  have half : 2 * (n - d * roundDiv n d) = d ∨ 2 * (n - d * roundDiv n d) = -d := by
    rwa [← abs_eq hd.le, abs_mul, abs_two]
  obtain hn | hn := le_or_gt 0 n
  · have strict := roundDiv_gt_of_nonneg hd hn
    have farther : n < d * roundDiv n d := by omega
    rwa [abs_of_nonneg hn, abs_of_pos (hn.trans_lt farther)]
  · have strict := roundDiv_lt_of_neg hd hn
    have farther : d * roundDiv n d < n := by omega
    rwa [abs_of_neg hn, abs_of_neg (farther.trans hn), neg_lt_neg_iff]

/-- Settles O16: nearest by `roundDiv_bounds`, away from zero at a tie because one of its bounds is strict; the two
values of R1 by evaluation. -/
theorem roundingIsToNearestHalvesAway : Obligations.RoundingIsToNearestHalvesAway :=
  ⟨fun n _ hd => ⟨roundDiv_nearest n hd, roundDiv_tie_away hd⟩, by decide, by decide⟩

end Sys2Proof.Proofs.Scope

/-! The table after power-on, of 04_the_line_table.md (R98). -/

namespace Sys2Proof.Proofs.Table

open Sys2Proof.Machine

/-! ### A table that lists no slot -/

theorem slot_of_slots_nil {t : LineTable} (h : t.slots = []) (n : Nat) : t.slot n = Slot.blank := by
  rw [LineTable.slot, h, slotGet_nil]

theorem liveCount_of_slots_nil {t : LineTable} (h : t.slots = []) (p : Point) : t.liveCount p = 0 := by
  rw [LineTable.liveCount, h, List.countP_nil]

theorem freeCount_of_slots_nil {t : LineTable} (h : t.slots = []) : t.freeCount = Config.slotCount := by
  rw [LineTable.freeCount, h, List.countP_nil, Nat.sub_zero]

theorem occupancyBytes_of_slots_nil {t : LineTable} (h : t.slots = []) :
    t.occupancyBytes = natField 2 0 ++ natField 2 0 ++ natField 2 Config.slotCount := by
  rw [LineTable.occupancyBytes, liveCount_of_slots_nil h, liveCount_of_slots_nil h, freeCount_of_slots_nil h]

/-! ### The table that POWER_ON_RESET leaves -/

theorem reset_slots : State.reset.table.slots = [] := rfl

theorem reset_index (p : Point) : State.reset.table.index.get p = [] := by
  cases p <;> rfl

/-- Nothing of the table before POWER_ON_RESET is kept. -/
theorem exec_powerOnReset_table (s : State) : ∃ t, exec .powerOnReset s = .next t ∧ t.table = State.reset.table :=
  ⟨_, rfl, rfl⟩

/-- Settles O5: POWER_ON_RESET leaves the table of the state after reset, which lists no slot; an unlisted slot is blank
and counted as FREE. -/
theorem powerOnLeavesTheTableEmpty : Obligations.PowerOnLeavesTheTableEmpty := by
  intro s
  obtain ⟨t, hexec, htable⟩ := exec_powerOnReset_table s
  have hslots : t.table.slots = [] := by rw [htable, reset_slots]
  refine ⟨t, hexec, fun n _ => slot_of_slots_nil hslots n, fun p => ?_, freeCount_of_slots_nil hslots,
    occupancyBytes_of_slots_nil hslots⟩
  rw [State.index, htable, reset_index]

end Sys2Proof.Proofs.Table

/-! The outcome table of a pass, of 05_scanning_cursor_and_windows.md (R121). -/

namespace Sys2Proof.Proofs.Passes

open Sys2Proof.Machine

/-! ### The outcome that each cause of a close gives -/

@[simp] theorem outcome_stopScan (r : OpenPass) (inProgress : Bool) :
    r.outcome .stopScan inProgress = .aborted := rfl

@[simp] theorem outcome_suspended (r : OpenPass) (inProgress : Bool) :
    r.outcome .suspended inProgress = .axisLost := rfl

@[simp] theorem outcome_jumped (r : OpenPass) (inProgress : Bool) :
    r.outcome .jumped inProgress = .jumped := rfl

@[simp] theorem outcome_exit (r : OpenPass) (side : Side) (inProgress : Bool) :
    r.outcome (.exit side) inProgress = if side = r.entrySide then .returned else r.tallied inProgress := rfl

/-! ### The rows that the tally decides -/

/-- MATCHED is left for a tally of 1 alone, where the record has a first X_line: the model's default for a record
without one is never taken. -/
theorem tallied_eq_rows {r : OpenPass} {x : Int} (first : r.tally = 1 → r.firstX = some x) (inProgress : Bool) :
    r.tallied inProgress =
      if r.split then .split
      else if 2 ≤ r.tally ∨ (r.tally = 1 ∧ inProgress = true) then .multiple
      else if r.tally = 0 ∧ inProgress = true then .incomplete
      else if r.tally = 0 then .missed
      else .matched x := by
  obtain none_yet | one | more : r.tally = 0 ∨ r.tally = 1 ∨ 2 ≤ r.tally := by omega
  · simp [OpenPass.tallied, none_yet]
  · simp [OpenPass.tallied, one, first one]
  · simp [OpenPass.tallied, more]

/-- Settles O29, by the cause of the close: all but an exit across the far side have a row of their own, and that exit
leaves the rows that the tally decides. -/
theorem outcomeIsTheFirstRowThatHolds : Obligations.OutcomeIsTheFirstRowThatHolds := by
  intro r inProgress x cause first
  cases cause with
  | stopScan => simp
  | suspended => simp
  | jumped => simp
  | exit side => simp [tallied_eq_rows first]

end Sys2Proof.Proofs.Passes

/-! The rules of the state's operations that the proofs below share, in the order of the model: arithmetic and received
fields, commits and examinations read field by field, and requests answered at once. -/

namespace Sys2Proof.Machine

/-! ### Arithmetic and received fields -/

theorem bump_eq_min (cap n : Nat) : bump cap n = min cap (n + 1) := by
  unfold bump; split <;> omega

theorem bump16_eq_min (n : Nat) : bump16 n = min 65535 (n + 1) := bump_eq_min _ _
theorem bump8_eq_min (n : Nat) : bump8 n = min 255 (n + 1) := bump_eq_min _ _

theorem clampNat_eq {lo hi : Nat} (h : lo ≤ hi) (v : Nat) : clampNat lo hi v = max lo (min hi v) := by
  unfold clampNat; split <;> [skip; split] <;> omega

theorem clampInt_eq {lo hi : Int} (h : lo ≤ hi) (v : Int) : clampInt lo hi v = max lo (min hi v) := by
  unfold clampInt; split <;> [skip; split] <;> omega

theorem flagOf_eq (b : Byte) : flagOf b = decide (b.toNat ≠ 0) := by
  simp [flagOf, ← BitVec.toNat_inj]

theorem byte_eq_iff (b : Byte) (n : Nat) (h : n < 256) : b = BitVec.ofNat 8 n ↔ b.toNat = n := by
  rw [← BitVec.toNat_inj, BitVec.toNat_ofNat, Nat.mod_eq_of_lt h]

theorem pointOf_eq (b : Byte) :
    pointOf b = if b.toNat = 0 then some .mp0 else if b.toNat = 1 then some .mp1 else none := by
  simp only [pointOf, ← BitVec.toNat_inj]
  rfl

/-- A point field of 0 or 1 names that point (R200). -/
theorem pointOf_of {b : Byte} {p : Point} (h : b.toNat = if p = .mp0 then 0 else 1) : pointOf b = some p := by
  cases p <;> simp_all [pointOf_eq]

theorem pointOf_of_gt {b : Byte} (h : 1 < b.toNat) : pointOf b = none := by
  rw [pointOf_eq, if_neg (by omega), if_neg (by omega)]

theorem axisOf_of {b : Byte} {a : Axis} (h : b.toNat = a.val) : axisOf b = some a := by
  unfold axisOf
  rw [dif_pos (by omega)]
  exact congrArg some (Fin.ext h)

theorem axisOf_of_gt {b : Byte} (h : 5 < b.toNat) : axisOf b = none := by
  unfold axisOf
  rw [dif_neg (by omega)]

theorem modeOf_eq (b : Byte) :
    modeOf b = if b.toNat = 0 then some .edgeRise else if b.toNat = 1 then some .edgeFall
      else if b.toNat = 2 then some .centreHigh else if b.toNat = 3 then some .centreLow else none := by
  simp only [modeOf, ← BitVec.toNat_inj]
  rfl

theorem StrobeMode.isCentre_eq_false_iff (m : StrobeMode) : m.isCentre = false ↔ m = .edgeRise ∨ m = .edgeFall := by
  cases m <;> simp [StrobeMode.isCentre]

theorem StrobeMode.isCentre_eq_true_iff (m : StrobeMode) : m.isCentre = true ↔ m = .centreHigh ∨ m = .centreLow := by
  cases m <;> simp [StrobeMode.isCentre]

/-! ### The conditions on points and axes, as propositions -/

theorem MeasuringPoint.contributes_iff (m : MeasuringPoint) (a : Axis) :
    m.contributes a = true ↔ m.config.coeffs.get a ≠ 0 := by simp [MeasuringPoint.contributes]

theorem MeasuringPoint.enabled_iff (m : MeasuringPoint) : m.enabled = true ↔ m.state ≠ .disabled := by
  simp [MeasuringPoint.enabled]

theorem MeasuringPoint.running_iff (m : MeasuringPoint) :
    m.running = true ↔ m.state = .scanning ∨ m.state = .halted := by simp [MeasuringPoint.running]

theorem Channel.inHold_iff (c : Channel) : c.inHold = true ↔ c.hold ≠ 0 := by simp [Channel.inHold]

theorem MeasuringPoint.axisHeld_iff (m : MeasuringPoint) (chs : Axes Channel) :
    m.axisHeld chs = true ↔ ∃ a, m.config.coeffs.get a ≠ 0 ∧ (chs.get a).hold ≠ 0 := by
  simp [MeasuringPoint.axisHeld, anyAxis_iff, MeasuringPoint.contributes_iff, Channel.inHold_iff]

theorem MeasuringPoint.axisHeld_eq_false_iff (m : MeasuringPoint) (chs : Axes Channel) :
    m.axisHeld chs = false ↔ ∀ a, m.config.coeffs.get a ≠ 0 → (chs.get a).hold = 0 := by
  simp [← Bool.not_eq_true, MeasuringPoint.axisHeld_iff]

/-- The axis is in use when it contributes to a point that is SCANNING or HALTED (R17). -/
theorem State.axisInUse_iff (s : State) (a : Axis) :
    s.axisInUse a = true ↔ ∃ p, (s.point p).running = true ∧ (s.point p).contributes a = true := by
  simp only [State.axisInUse, Bool.or_eq_true, Bool.and_eq_true]
  constructor
  · rintro (h | h)
    · exact ⟨.mp0, h⟩
    · exact ⟨.mp1, h⟩
  · rintro ⟨p, h⟩
    cases p
    · exact .inl h
    · exact .inr h

theorem MeasuringPoint.passOpen_iff (m : MeasuringPoint) :
    m.passOpen = true ↔ ∃ d dir r, m.cursor = .opened d dir r := by
  unfold MeasuringPoint.passOpen
  cases m.cursor <;> simp

theorem MeasuringPoint.passOpen_of {m : MeasuringPoint} {d : Designation} {dir : Travel} {r : OpenPass}
    (h : m.cursor = .opened d dir r) : m.passOpen = true := m.passOpen_iff.2 ⟨d, dir, r, h⟩

theorem State.forall_point {P : Point → Prop} : (∀ p, P p) ↔ P .mp0 ∧ P .mp1 :=
  ⟨fun h => ⟨h _, h _⟩, fun h p => by cases p; exacts [h.1, h.2]⟩

/-! ### States that agree in every field -/

theorem State.points_ext {s t : State} (h : ∀ p, s.point p = t.point p) : s.points = t.points := Pair.eq_of_get h

/-! ### Commits and examinations, field by field (R36 to R39) -/

section
variable (s : State) (k : CommitKind)

@[simp] theorem State.commit_sampled : (s.commit k).sampled = s.sampled := by
  rcases s.commit_cases k with ⟨_, h⟩ | ⟨_, _, h⟩ <;> simp [h]
@[simp] theorem State.commit_lostNow : (s.commit k).lostNow = s.lostNow := by
  rcases s.commit_cases k with ⟨_, h⟩ | ⟨_, _, h⟩ <;> simp [h]
@[simp] theorem State.commit_refok : (s.commit k).refok = s.refok := by
  rcases s.commit_cases k with ⟨_, h⟩ | ⟨_, _, h⟩ <;> simp [h]
@[simp] theorem State.commit_table : (s.commit k).table = s.table := by
  rcases s.commit_cases k with ⟨_, h⟩ | ⟨_, _, h⟩ <;> simp [h]
@[simp] theorem State.commit_port : (s.commit k).port = s.port := by
  rcases s.commit_cases k with ⟨_, h⟩ | ⟨_, _, h⟩ <;> simp [h]
@[simp] theorem State.commit_pointer : (s.commit k).pointer = s.pointer := by
  rcases s.commit_cases k with ⟨_, h⟩ | ⟨_, _, h⟩ <;> simp [h]
@[simp] theorem State.commit_req : (s.commit k).req = s.req := by
  rcases s.commit_cases k with ⟨_, h⟩ | ⟨_, _, h⟩ <;> simp [h]
@[simp] theorem State.commit_pending : (s.commit k).pending = s.pending := by
  rcases s.commit_cases k with ⟨_, h⟩ | ⟨_, _, h⟩ <;> simp [h]
@[simp] theorem State.commit_routes : (s.commit k).notices.routes = s.notices.routes := by
  rcases s.commit_cases k with ⟨_, h⟩ | ⟨_, _, h⟩ <;> simp [h]

@[simp] theorem State.examine_sampled : s.examine.sampled = s.sampled := by
  rcases s.examine_eq with h | ⟨_, _, h⟩ <;> simp [h]
@[simp] theorem State.examine_lostNow : s.examine.lostNow = s.lostNow := by
  rcases s.examine_eq with h | ⟨_, _, h⟩ <;> simp [h]
@[simp] theorem State.examine_refok : s.examine.refok = s.refok := by
  rcases s.examine_eq with h | ⟨_, _, h⟩ <;> simp [h]
@[simp] theorem State.examine_table : s.examine.table = s.table := by
  rcases s.examine_eq with h | ⟨_, _, h⟩ <;> simp [h]
@[simp] theorem State.examine_port : s.examine.port = s.port := by
  rcases s.examine_eq with h | ⟨_, _, h⟩ <;> simp [h]
@[simp] theorem State.examine_pointer : s.examine.pointer = s.pointer := by
  rcases s.examine_eq with h | ⟨_, _, h⟩ <;> simp [h]
@[simp] theorem State.examine_req : s.examine.req = s.req := by
  rcases s.examine_eq with h | ⟨_, _, h⟩ <;> simp [h]
@[simp] theorem State.examine_pending : s.examine.pending = s.pending := by
  rcases s.examine_eq with h | ⟨_, _, h⟩ <;> simp [h]

end

/-- A channel after a commit differs in its Kc at most (R39). -/
theorem State.commit_channel (s : State) (k : CommitKind) (a : Axis) :
    (s.commit k).channels.get a = { s.channels.get a with kc := ((s.commit k).channels.get a).kc } := by
  rcases s.commit_cases k with ⟨_, h⟩ | ⟨_, _, h⟩ <;> rw [h]
  simp [Channel.recompensate]

theorem State.examine_channel (s : State) (a : Axis) :
    s.examine.channels.get a = { s.channels.get a with kc := (s.examine.channels.get a).kc } := by
  rcases s.examine_eq with h | ⟨k, _, h⟩
  · rw [h]
  · rw [h]; exact s.commit_channel k a

/-- A point after a commit is as it was, or its open pass has been marked split (R38). -/
theorem State.commit_point (s : State) (k : CommitKind) (p : Point) :
    (s.commit k).point p = s.point p ∨ (s.commit k).point p = (s.point p).takeCommit := by
  rcases s.commit_cases k with ⟨_, h⟩ | ⟨_, _, h⟩
  · exact .inl (by rw [h])
  · exact .inr (by simp [h])

theorem State.examine_point (s : State) (p : Point) :
    s.examine.point p = s.point p ∨ s.examine.point p = (s.point p).takeCommit := by
  rcases s.examine_eq with h | ⟨k, _, h⟩
  · exact .inl (by rw [h])
  · rw [h]; exact s.commit_point k p

theorem State.commit_of_none {s : State} (h : s.cu.pendingSet = none) (k : CommitKind) : s.commit k = s := by
  unfold State.commit; rw [h]

theorem State.examine_of_none {s : State} (h : s.cu.pendingSet = none) : s.examine = s := by
  rcases s.examine_eq with e | ⟨k, _, e⟩
  · exact e
  · rw [e, State.commit_of_none h]

/-! ### The transaction of a request, apart from what the request does (R184, R189)

What a request does never reads the port, so the end of its transaction may be moved behind it. -/

theorem State.shiftOut_raiseIf (s : State) (n : Nat) (b : Bool) (k : EventKind) :
    (s.shiftOut n).raiseIf b k = (s.raiseIf b k).shiftOut n := by cases b <;> rfl

theorem State.shiftOut_raiseAll (ks : List EventKind) (s : State) (n : Nat) :
    (s.shiftOut n).raiseAll ks = (s.raiseAll ks).shiftOut n := by
  induction ks generalizing s with
  | nil => rfl
  | cons k ks ih => exact ih (s.raise k)

theorem State.shiftOut_takePoint (s : State) (n : Nat) (p : Point) (r : PointResult) :
    (s.shiftOut n).takePoint p r = (s.takePoint p r).shiftOut n :=
  State.shiftOut_raiseAll r.events (s.setPoint p r.point) n

theorem State.shiftOut_commit (s : State) (n : Nat) (k : CommitKind) :
    (s.shiftOut n).commit k = (s.commit k).shiftOut n := by
  unfold State.commit
  simp only [State.shiftOut_cu]
  split
  · rfl
  · next ps _ => exact State.shiftOut_raiseIf ((s.applyCommit ps k).raise .committed) n _ _

theorem State.shiftOut_examine (s : State) (n : Nat) : (s.shiftOut n).examine = s.examine.shiftOut n := by
  have hq : (s.shiftOut n).bothQuiet = s.bothQuiet := rfl
  have hg : (s.shiftOut n).bothGuardClear = s.bothGuardClear := rfl
  unfold State.examine
  simp only [State.shiftOut_cu, State.shiftOut_commit, hq, hg]
  split_ifs <;> rfl

theorem State.shiftOut_policyPanic (s : State) (n : Nat) : (s.shiftOut n).policyPanic = s.policyPanic.shiftOut n := by
  unfold State.policyPanic
  simp only [State.shiftOut_cu, State.shiftOut_commit]
  split_ifs <;> rfl

theorem State.shiftOut_staleTest (s : State) (n : Nat) : (s.shiftOut n).staleTest = s.staleTest.shiftOut n := by
  unfold State.staleTest
  rw [apply_ite (State.shiftOut · n)]
  rfl

/-- A refused request is answered with its status and changes nothing else (R189, R190). -/
theorem State.serve_refused {s : State} {len : Nat} {act : State → Except Status (State × Response)} {st : Status}
    (h : s.TakesRequests) (ha : act (s.shiftOut (s.req.frameEdges len)) = .error st) :
    s.serve len act = s.answered len ⟨st, []⟩ := by
  rcases s.serve_cases len act with ⟨hi, _⟩ | ⟨hl, _⟩ | ⟨_, st', he, e⟩ | ⟨_, t, r, he, _⟩
  · exact absurd hi h.2
  · exact absurd h.1 hl
  · rw [ha] at he
    cases he
    rw [e, State.place_shiftOut]
    rfl
  · rw [ha] at he
    cases he

/-- An accepted request leaves the state `u` it made of `s`, answered, with as many edges of SCK (R189). -/
theorem State.serve_accepted_of_edges {s u : State} {len : Nat} {act : State → Except Status (State × Response)}
    {r : Response} (h : s.TakesRequests)
    (ha : act (s.shiftOut (s.req.frameEdges len)) = .ok (u.shiftOut (s.req.frameEdges len), r))
    (hu : u.req.frameEdges len = s.req.frameEdges len) : s.serve len act = u.answered len r := by
  rcases s.serve_cases len act with ⟨hi, _⟩ | ⟨hl, _⟩ | ⟨_, st', he, _⟩ | ⟨_, t, r', he, e⟩
  · exact absurd hi h.2
  · exact absurd h.1 hl
  · rw [ha] at he
    cases he
  · rw [ha] at he
    cases he
    rw [e, ← hu, State.place_shiftOut]

/-- An accepted request that leaves the port alone (R189). -/
theorem State.serve_accepted {s u : State} {len : Nat} {act : State → Except Status (State × Response)} {r : Response}
    (h : s.TakesRequests)
    (ha : act (s.shiftOut (s.req.frameEdges len)) = .ok (u.shiftOut (s.req.frameEdges len), r)) (hu : u.req = s.req) :
    s.serve len act = u.answered len r :=
  State.serve_accepted_of_edges h ha (by rw [hu])

theorem State.serveTable_refused {s : State} {len : Nat} {check : Except Status Job} {st : Status}
    (h : s.TakesRequests) (hc : check = .error st) : s.serveTable len check = s.answered len ⟨st, []⟩ := by
  rcases s.serveTable_cases len check with ⟨hi, _⟩ | ⟨hl, _⟩ | ⟨_, st', he, e⟩ | ⟨_, j, he, _⟩
  · exact absurd hi h.2
  · exact absurd h.1 hl
  · rw [hc] at he
    cases he
    rw [e, State.place_shiftOut]
    rfl
  · rw [hc] at he
    cases he

theorem State.serveTable_accepted {s : State} {len : Nat} {check : Except Status Job} {j : Job}
    (h : s.TakesRequests) (hc : check = .ok j) : s.serveTable len check = s.asking len j := by
  rcases s.serveTable_cases len check with ⟨hi, _⟩ | ⟨hl, _⟩ | ⟨_, st', he, _⟩ | ⟨_, j', he, e⟩
  · exact absurd hi h.2
  · exact absurd h.1 hl
  · rw [hc] at he
    cases he
  · rw [hc] at he
    cases he
    exact e

end Sys2Proof.Machine

/-! Everything a step can do, said once. A command brings about an event of the outside world, an accepted request, a move of
the request port alone, an access to the table, or the power-on state; the invariants are proved over these cases. -/

namespace Sys2Proof.Machine

/-! ### Names for what a command leaves -/

/-- The part after a phase sample, before its examination (R4). -/
def State.sampleUpdated (s : State) (phases : Axes Phase) (sigok : Axes Bool) (refok : Bool) : State :=
  let lost := fun a => (s.sampleAxis phases sigok refok a).lost
  ((((s.sampleChannels phases sigok refok).handLoss lost .mp0).handLoss lost .mp1).updatePoint .mp0).updatePoint .mp1

theorem exec_phaseSample (s : State) (phases : Axes Phase) (sigok : Axes Bool) (refok : Bool) :
    exec (.phaseSample phases sigok refok) s = .next (s.sampleUpdated phases sigok refok).examine := rfl

/-- The access of a job (R82). -/
def State.runJob (s : State) : Job → AccessResult
  | .load p key nominal halfWidth hold trigger clamped =>
    s.loadAccess (newEntry p key nominal halfWidth hold trigger) clamped
  | .amend p key nominal halfWidth hold trigger clamped => s.amendAccess p key nominal halfWidth hold trigger clamped
  | .clear p key => s.clearAccess p key
  | .retire p next last retired skipped => s.retireStep p next last retired skipped
  | .lookup p key => s.lookupAccess p key
  | .sweep p next copied records => s.sweepStep p next copied records
  | .restart => s.restartAccess

/-- The part after POWER_ON_RESET. -/
def State.powerOn (s : State) : State :=
  { State.reset with
    points :=
      { mp0 := s.points.mp0.powerOn State.reset.points.mp0
        mp1 := s.points.mp1.powerOn State.reset.points.mp1 }
    req := s.req.powerOn
    pending := s.pending }

theorem exec_powerOnReset (s : State) : exec .powerOnReset s = .next s.powerOn := rfl

/-! ### The access commands -/

/-- The access command of the waiting job, when it is granted, runs the job's access (R131, R142). -/
theorem exec_accessCommand {s : State} {j : Job} (h : s.Grants j) :
    exec j.accessCommand s = .next (s.runJob j).grant := by
  cases j <;> exact congrArg Host.Outcome.next (State.grantAccess_of h rfl)

theorem State.grantAccess_of_not_granted {s : State} (h : s.executorGranted = false) (run : Job → Option AccessResult) :
    s.grantAccess run = s := by
  rcases s.grantAccess_cases run with e | ⟨_, _, _, hg, _⟩
  · exact e
  · rw [h] at hg
    cases hg

/-- An access command that is not granted leaves the part as it is (log 6). -/
theorem exec_accessCommand_of_not_granted {s : State} (j : Job) (h : s.executorGranted = false) :
    exec j.accessCommand s = .next s := by
  cases j <;> exact congrArg Host.Outcome.next (State.grantAccess_of_not_granted h _)

/-! ### The cases -/

/-- What an event outside the request port does to the part. -/
inductive EventStep (s : State) : State → Prop
  | none : EventStep s s
  | phaseSample (phases : Axes Phase) (sigok : Axes Bool) (refok : Bool) :
    EventStep s (s.sampleUpdated phases sigok refok).examine
  | leadingEdge (p : Point) : EventStep s (s.setPoint p ((s.point p).leadingEdge s.channels))
  | trailingEdge (p : Point) (active : Nat) :
    EventStep s (s.setPoint p ((s.point p).trailingEdge s.channels active))
  | completion (p : Point) : EventStep s (s.setPoint p (s.point p).completePulse)
  | triggerEnd (p : Point) : EventStep s (s.setPoint p (s.point p).endTrigger)
  | tick : EventStep s s.reduceTimer
  | expiry : EventStep s s.expire

/-- What an accepted request that needs no table access makes of the part, apart from its answer. -/
inductive RequestStep (s : State) : State → Prop
  | none : RequestStep s s
  | configureAxis (a : Axis) (fitted invert : Bool) (wavelength : BitVec 32) (fold : Byte) (drop : Nat)
      (valid : axisSettingsValid wavelength fold = true) (unused : s.axisInUse a = false) :
    RequestStep s
      { s with
        channels := s.channels.set a
          (((s.channels.get a).configure (s.cu.activeW.get a) fitted wavelength.toNat fold.toNat invert drop).setFitted
            (s.cu.activeW.get a) fitted) }
  | presetAxis (a : Axis) (value : Int) (range : countInRange value = true) (ok : s.presettable a = true) :
    RequestStep s { s with channels := s.channels.set a ((s.channels.get a).preset value) }
  | supplyMedium (generation : BitVec 16) (mask : Byte) (w : Axes (BitVec 32)) :
    RequestStep s { s with cu := s.cu.supply generation mask w }.examine
  | setPolicy (hp panic stale : Byte) (guard : BitVec 32) (hold : Byte) :
    RequestStep s { s with cu := s.cu.setPolicy hp panic stale guard hold }.policyPanic.staleTest
  | forceCommit : RequestStep s { s with cu := s.cu.force }
  | setTimer (select : Byte) (period count : BitVec 16) (enable : Byte) :
    RequestStep s { s with cu := s.cu.setTimer select period count enable }
  | configurePoint (p : Point) (enabled : Byte) (coeffs : Axes Int) (mode : StrobeMode) (tau width hyst : BitVec 16)
      (lead : BitVec 32) (range : coeffsInRange coeffs = true)
      (rest : (s.point p).state = .disabled ∨ (s.point p).state = .idle) :
    RequestStep s
      (s.setPoint p ((s.point p).configure (pointSettings enabled coeffs mode tau width hyst lead) s.sampled))
  | startScan (p : Point) (first last : BitVec 16) (stride : Byte) (order : first.toNat ≤ last.toNat)
      (rest : (s.point p).state = .idle) (tracking : (s.point p).axisNotTracking s.channels = false) :
    RequestStep s
      (s.takePoint p ((s.point p).startScan first.toNat last.toNat (clampNat 1 255 stride.toNat) (s.index p)))
  | stopScan (p : Point) (active : (s.point p).state ≠ .disabled ∧ (s.point p).state ≠ .idle) :
    RequestStep s (s.setPoint p ((s.point p).stopScan s.cu.stale))
  | acknowledgeHalt (p : Point) (halted : (s.point p).state = .halted) :
    RequestStep s (s.takePoint p ({ s.point p with state := .scanning }.seek (s.index p)))
  | clearCounters : RequestStep s s.clearCounters
  | clearNamed (mask : BitVec 16) : RequestStep s (s.clearNamed mask)
  | setRoutes (routes : BitVec 24) : RequestStep s { s with notices := { s.notices with routes := routesOf routes } }

/-- What a transaction that carries no accepted request does to the request port. -/
inductive PortStep (s : State) : State → Prop
  | endIgnored : PortStep s s.endIgnored
  | statusRead (n : Nat) : PortStep s (s.shiftOut n)
  | discard (n : Nat) : PortStep s (s.shiftOut n).discard
  | discardMalformed (n : Nat) : PortStep s (s.shiftOut n).discardMalformed
  | fall : PortStep s s.beginTransfer
  | lByte : PortStep s s.decideFetch
  | runOn (sdi : List Bool) : PortStep s (s.runOn sdi)
  | rise (n : Nat) (acted : s.req.transfer ≠ .ignored) : PortStep s (s.finishFetch n)

/-- Everything a command can do. -/
inductive CommandStep (s : State) : State → Prop
  | event {t : State} (h : EventStep s t) : CommandStep s t
  | answered {u : State} (len : Nat) (r : Response) (idle : s.TakesRequests) (h : RequestStep s u) :
    CommandStep s (u.answered len r)
  | asking (len : Nat) (j : Job) (idle : s.TakesRequests) (ok : JobOk j) : CommandStep s (s.asking len j)
  | port {t : State} (h : PortStep s t) : CommandStep s t
  | access (j : Job) (granted : s.Grants j) : CommandStep s (s.runJob j).grant
  | evaluate (r : PassRecord) (rest : List PassRecord) (granted : s.evaluatorGranted = true)
      (oldest : (s.point s.chosenQueue).queue = r :: rest) :
    CommandStep s ((s.evaluate s.chosenQueue r).grantEvaluator s.chosenQueue)
  | place (r : Response) (done : s.req.executor = .accessing (.answer r)) :
    CommandStep s ({ s with port := s.port.release }.place r)
  | askNext (j : Job) (done : s.req.executor = .accessing (.ask j)) :
    CommandStep s { s with port := s.port.release, req := { s.req with executor := .waiting j } }
  | dropRecord (occupied : s.port.occupant = .evaluator) :
    CommandStep s ({ s with port := s.port.release }.setPoint s.pointer.other (s.point s.pointer.other).dropOldest)
  | powerOn : CommandStep s s.powerOn

/-! ### Requests -/

/-- A request leaves the port to its answer, all but the counts that READ STATUS clears (R197). -/
theorem RequestStep.req_eq {s u : State} (h : RequestStep s u) :
    u.req = s.req ∨ u = s.clearCounters := by
  cases h with
  | clearCounters => exact .inr rfl
  | setPolicy hp panic stale guard hold =>
    left
    rcases State.staleTest_cases ({ s with cu := s.cu.setPolicy hp panic stale guard hold }.policyPanic) with ⟨e, _⟩ | ⟨e, _⟩
    all_goals
      rw [e]
      rcases State.policyPanic_cases { s with cu := s.cu.setPolicy hp panic stale guard hold } with ⟨e', _⟩ | ⟨e', _⟩ <;>
        simp [e']
  | _ => exact .inl (by simp [State.clearNamed])

/-- A request without a table access: whatever `act` makes of the part is a case of `RequestStep`. -/
theorem CommandStep.serve {s : State} {len : Nat} {act : State → Except Status (State × Response)}
    (h : ∀ v r, act (s.shiftOut (s.req.frameEdges len)) = .ok (v, r) →
      ∃ u, RequestStep s u ∧ v = u.shiftOut (s.req.frameEdges len)) :
    CommandStep s (s.serve len act) := by
  rcases s.serve_cases len act with ⟨_, e⟩ | ⟨_, _, e⟩ | ⟨hi, st, _, e⟩ | ⟨hi, v, r, ha, e⟩
  · rw [e]; exact .port .endIgnored
  · rw [e]; exact .port (.discard _)
  · rw [e, State.place_shiftOut]; exact .answered len _ hi .none
  · obtain ⟨u, hu, rfl⟩ := h v r ha
    have hedges : s.req.frameEdges len = u.req.frameEdges len := by
      rcases hu.req_eq with hr | hr <;> rw [hr]
      rfl
    rw [e, hedges, State.place_shiftOut]
    exact .answered len r hi hu

theorem CommandStep.serveTable {s : State} {len : Nat} {check : Except Status Job}
    (h : ∀ j, check = .ok j → JobOk j) : CommandStep s (s.serveTable len check) := by
  rcases s.serveTable_cases len check with ⟨_, e⟩ | ⟨_, _, e⟩ | ⟨hi, st, _, e⟩ | ⟨hi, j, hj, e⟩
  · rw [e]; exact .port .endIgnored
  · rw [e]; exact .port (.discard _)
  · rw [e, State.place_shiftOut]; exact .answered len _ hi .none
  · rw [e]; exact .asking len j hi (h j hj)

theorem CommandStep.configureAxis (s : State) (axis fitted : Byte) (wavelength : BitVec 32) (fold invert drop : Byte) {t : State}
    (h : exec (.configureAxis axis fitted wavelength fold invert drop) s = .next t) : CommandStep s t := by
  cases h
  refine .serve fun v r ha => ?_
  split at ha
  · cases ha
  · next a _ =>
    split_ifs at ha with h1 h2
    cases ha
    exact ⟨_, .configureAxis a (flagOf fitted) (flagOf invert) wavelength fold drop.toNat (by simpa using h1)
      (eq_false_of_ne_true h2), rfl⟩

theorem CommandStep.presetAxis (s : State) (axis : Byte) (value : BitVec 48) {t : State}
    (h : exec (.presetAxis axis value) s = .next t) : CommandStep s t := by
  cases h
  refine .serve fun v r ha => ?_
  split at ha
  · cases ha
  · next a _ =>
    split_ifs at ha with h1 h2
    cases ha
    exact ⟨_, .presetAxis a value.toInt (by simpa using h1)
      (by simpa using (show ¬(!s.presettable a) = true from h2)), rfl⟩

theorem CommandStep.supplyMedium (s : State) (generation : BitVec 16) (mask : Byte) (w : Axes (BitVec 32)) {t : State}
    (h : exec (.supplyMedium generation mask w) s = .next t) : CommandStep s t := by
  cases h
  refine .serve fun v r ha => ?_
  split_ifs at ha
  cases ha
  exact ⟨_, .supplyMedium generation mask w,
    State.shiftOut_examine { s with cu := s.cu.supply generation mask w } _⟩

theorem CommandStep.setCommitPolicy (s : State) (hp panic stale : Byte) (guard : BitVec 32) (hold : Byte) {t : State}
    (h : exec (.setCommitPolicy hp panic stale guard hold) s = .next t) : CommandStep s t := by
  cases h
  refine .serve fun v r ha => ?_
  cases ha
  refine ⟨_, .setPolicy hp panic stale guard hold, ?_⟩
  rw [← State.shiftOut_staleTest, ← State.shiftOut_policyPanic]
  rfl

theorem CommandStep.configurePoint (s : State) (point enabled : Byte) (coeffs : Axes (BitVec 32)) (mode : Byte)
    (tau width hyst : BitVec 16) (lead : BitVec 32) {t : State}
    (h : exec (.configurePoint point enabled coeffs mode tau width hyst lead) s = .next t) : CommandStep s t := by
  cases h
  refine .serve fun v r ha => ?_
  split at ha
  · next p md _ _ =>
    dsimp only at ha
    split_ifs at ha with h1 h2 h3
    cases ha
    simp only [Bool.or_eq_true, Bool.not_eq_eq_eq_not, Bool.not_true, not_or, Bool.not_eq_false] at h1
    refine ⟨_, .configurePoint p enabled (coeffsOf coeffs) md tau width hyst lead h1.1 ?_, rfl⟩
    simpa [or_iff_not_imp_left] using h2
  · cases ha
  · cases ha

theorem CommandStep.startScan (s : State) (point : Byte) (first last : BitVec 16) (stride : Byte) {t : State}
    (h : exec (.startScan point first last stride) s = .next t) : CommandStep s t := by
  cases h
  refine .serve fun v r ha => ?_
  split at ha
  · cases ha
  · next p _ =>
    split_ifs at ha with h1 h2 h3
    cases ha
    exact ⟨_, .startScan p first last stride (by omega) (by simpa using h2) (by simpa using h3),
      State.shiftOut_takePoint s _ _ _⟩

theorem CommandStep.stopScan (s : State) (point : Byte) {t : State} (h : exec (.stopScan point) s = .next t) :
    CommandStep s t := by
  cases h
  refine .serve fun v r ha => ?_
  split at ha
  · cases ha
  · next p _ =>
    split_ifs at ha with h1
    cases ha
    exact ⟨_, .stopScan p (by simpa using h1), rfl⟩

theorem CommandStep.acknowledgeHalt (s : State) (point : Byte) {t : State}
    (h : exec (.acknowledgeHalt point) s = .next t) : CommandStep s t := by
  cases h
  refine .serve fun v r ha => ?_
  split at ha
  · cases ha
  · next p _ =>
    split_ifs at ha with h1
    cases ha
    exact ⟨_, .acknowledgeHalt p (by simpa using h1), State.shiftOut_takePoint s _ _ _⟩

theorem CommandStep.readStatus (s : State) (clear : Byte) {t : State} (h : exec (.readStatus clear) s = .next t) :
    CommandStep s t := by
  cases h
  refine .serve fun v r ha => ?_
  split_ifs at ha
  · cases ha; exact ⟨_, .none, rfl⟩
  · cases ha; exact ⟨_, .clearCounters, rfl⟩

theorem CommandStep.takeNotices (s : State) (mask : BitVec 16) {t : State} (h : exec (.takeNotices mask) s = .next t) :
    CommandStep s t := by
  cases h
  refine .serve fun v r ha => ?_
  split_ifs at ha
  cases ha
  exact ⟨_, .clearNamed mask, rfl⟩

/-! ### Table requests -/

theorem bitVec16_le (v : BitVec 16) : v.toNat ≤ 65535 := by omega

theorem definitionCheck_ok {point : Byte} {nominal : BitVec 48} {d : Point × Int}
    (h : definitionCheck point nominal = .ok d) : InPositionRange d.2 := by
  unfold definitionCheck at h
  split at h
  · cases h
  · split_ifs at h with hn
    cases h
    simpa [nominalInRange, InPositionRange] using hn

theorem clampHalfWidth_range (h : BitVec 32) :
    Config.halfWidthMin ≤ clampHalfWidth h ∧ clampHalfWidth h ≤ Config.halfWidthMax :=
  clampNat_range (by decide) _

/-- A check that answers a value of a map came from a value before the map. -/
theorem exceptMap_ok {α β : Type} {c : Except Status α} {f : α → β} {b : β} (h : c.map f = .ok b) :
    ∃ a, c = .ok a ∧ f a = b := by
  cases c with
  | error _ => cases h
  | ok a => cases h; exact ⟨a, rfl, rfl⟩

theorem CommandStep.loadEntry (s : State) (point : Byte) (key : BitVec 16) (nominal : BitVec 48) (halfWidth : BitVec 32)
    (hold trigger : Byte) {t : State} (h : exec (.loadEntry point key nominal halfWidth hold trigger) s = .next t) :
    CommandStep s t := by
  cases h
  refine .serveTable fun j hj => ?_
  obtain ⟨d, hd, rfl⟩ := exceptMap_ok hj
  exact ⟨bitVec16_le key, definitionCheck_ok hd, clampHalfWidth_range halfWidth⟩

theorem CommandStep.amendEntry (s : State) (point : Byte) (key : BitVec 16) (nominal : BitVec 48) (halfWidth : BitVec 32)
    (hold trigger : Byte) {t : State} (h : exec (.amendEntry point key nominal halfWidth hold trigger) s = .next t) :
    CommandStep s t := by
  cases h
  refine .serveTable fun j hj => ?_
  obtain ⟨d, hd, rfl⟩ := exceptMap_ok hj
  exact ⟨bitVec16_le key, definitionCheck_ok hd, clampHalfWidth_range halfWidth⟩

theorem CommandStep.clearEntry (s : State) (point : Byte) (key : BitVec 16) {t : State}
    (h : exec (.clearEntry point key) s = .next t) : CommandStep s t := by
  cases h
  refine .serveTable fun j hj => ?_
  obtain ⟨p, _, rfl⟩ := exceptMap_ok hj
  exact bitVec16_le key

theorem CommandStep.retireEntries (s : State) (point : Byte) (first last : BitVec 16) {t : State}
    (h : exec (.retireEntries point first last) s = .next t) : CommandStep s t := by
  cases h
  refine .serveTable fun j hj => ?_
  split_ifs at hj
  obtain ⟨p, _, rfl⟩ := exceptMap_ok hj
  exact bitVec16_le last

theorem CommandStep.lookupEntry (s : State) (point : Byte) (key : BitVec 16) {t : State}
    (h : exec (.lookupEntry point key) s = .next t) : CommandStep s t := by
  cases h
  refine .serveTable fun j hj => ?_
  obtain ⟨p, _, rfl⟩ := exceptMap_ok hj
  exact bitVec16_le key

theorem CommandStep.sweepEntries (s : State) (point : Byte) (start : BitVec 16) {t : State}
    (h : exec (.sweepEntries point start) s = .next t) : CommandStep s t := by
  cases h
  refine .serveTable fun j hj => ?_
  obtain ⟨p, _, rfl⟩ := exceptMap_ok hj
  exact Nat.zero_le _

/-! ### The port and the accesses -/

theorem CommandStep.frameDiscarded (s : State) (sdi : List Bool) {t : State}
    (h : exec (.frameDiscarded sdi) s = .next t) : CommandStep s t := by
  cases h
  rcases s.endTransfer_cases fun t => t.endFrame (sdi ++ t.req.later) with ⟨_, e⟩ | ⟨_, e⟩
  · rw [e]; exact .port .endIgnored
  · rw [e]
    unfold State.endFrame
    split
    · exact .port (.statusRead _)
    · exact .port (.discardMalformed _)
    · exact .port (.discard _)
    · split
      · exact .event .none
      · exact .port (.discard _)

theorem CommandStep.fetch (s : State) (m : FetchMoment) {t : State} (h : exec (.fetch m) s = .next t) :
    CommandStep s t := by
  cases h
  cases m with
  | fall => exact .port .fall
  | lByte => exact .port .lByte
  | runOn sdi => exact .port (.runOn sdi)
  | rise sdi =>
    rcases s.endTransfer_cases fun t => t.finishFetch (16 + sdi.length + t.req.later.length) with ⟨_, e⟩ | ⟨hi, e⟩
    · dsimp only; rw [e]; exact .port .endIgnored
    · dsimp only; rw [e]; exact .port (.rise _ hi)

/-- An access command grants the waiting job's access, or none takes place. -/
theorem CommandStep.grantAccess {s : State} {run : Job → Option AccessResult}
    (h : ∀ j r, run j = some r → r = s.runJob j) : CommandStep s (s.grantAccess run) := by
  rcases s.grantAccess_cases run with e | ⟨j, r, hw, hg, hr, e⟩
  · rw [e]; exact .event .none
  · rw [e, h j r hr]; exact .access j ⟨hw, hg⟩

theorem CommandStep.evaluatorAccess (s : State) {t : State} (h : exec .evaluatorAccess s = .next t) :
    CommandStep s t := by
  cases h
  split
  · next hg =>
    split
    · next r rest hq => exact .evaluate r rest hg hq
    · exact .event .none
  · exact .event .none

theorem CommandStep.executorAccessComplete (s : State) {t : State} (h : exec .executorAccessComplete s = .next t) :
    CommandStep s t := by
  cases h
  split
  · next r hr => exact .place r hr
  · next j hj => exact .askNext j hj
  · exact .event .none
  · exact .event .none

/-! ### Every command -/

/-- What a command does is one of the cases. -/
theorem commandStep_of_exec {c : Instr} {s t : State} (h : exec c s = .next t) : CommandStep s t := by
  cases c with
  | powerOnReset => cases h; exact .powerOn
  | phaseSample phases sigok refok =>
    rw [exec_phaseSample] at h
    rw [← Host.Outcome.next.inj h]
    exact .event (.phaseSample phases sigok refok)
  | strobeLeadingEdge p => cases h; exact .event (.leadingEdge p)
  | strobeTrailingEdge p active => cases h; exact .event (.trailingEdge p active)
  | strobeCompletion p => cases h; exact .event (.completion p)
  | triggerPulseEnd p => cases h; exact .event (.triggerEnd p)
  | millisecondTick =>
    cases h
    split_ifs
    exacts [.event .expiry, .event .tick, .event .none]
  | expiry =>
    cases h
    split_ifs
    exacts [.event .expiry, .event .none]
  | frameDiscarded sdi => exact .frameDiscarded s sdi h
  | fetch m => exact .fetch s m h
  | configureAxis axis fitted wavelength fold invert drop => exact .configureAxis s axis fitted wavelength fold invert drop h
  | presetAxis axis value => exact .presetAxis s axis value h
  | readAxes => cases h; exact .serve fun v r ha => by cases ha; exact ⟨_, .none, rfl⟩
  | supplyMedium generation mask w => exact .supplyMedium s generation mask w h
  | setCommitPolicy hp panic stale guard hold => exact .setCommitPolicy s hp panic stale guard hold h
  | forceCommit => cases h; exact .serve fun v r ha => by cases ha; exact ⟨_, .forceCommit, rfl⟩
  | setTimer select period count enable =>
    cases h
    exact .serve fun v r ha => by cases ha; exact ⟨_, .setTimer select period count enable, rfl⟩
  | configurePoint point enabled coeffs mode tau width hyst lead =>
    exact .configurePoint s point enabled coeffs mode tau width hyst lead h
  | startScan point first last stride => exact .startScan s point first last stride h
  | stopScan point => exact .stopScan s point h
  | acknowledgeHalt point => exact .acknowledgeHalt s point h
  | loadEntry point key nominal halfWidth hold trigger => exact .loadEntry s point key nominal halfWidth hold trigger h
  | amendEntry point key nominal halfWidth hold trigger => exact .amendEntry s point key nominal halfWidth hold trigger h
  | clearEntry point key => exact .clearEntry s point key h
  | retireEntries point first last => exact .retireEntries s point first last h
  | lookupEntry point key => exact .lookupEntry s point key h
  | sweepEntries point start => exact .sweepEntries s point start h
  | readStatus clear => exact .readStatus s clear h
  | takeNotices mask => exact .takeNotices s mask h
  | setRoutes routes => cases h; exact .serve fun v r ha => by cases ha; exact ⟨_, .setRoutes routes, rfl⟩
  | restart => cases h; exact .serveTable fun j hj => by cases hj; trivial
  | evaluatorAccess => exact .evaluatorAccess s h
  | evaluatorAccessComplete =>
    cases h
    split_ifs with ho
    exacts [.dropRecord ho, .event .none]
  | executorAccessComplete => exact .executorAccessComplete s h
  | _ =>
    cases h
    refine .grantAccess fun j r hr => ?_
    cases j <;> cases hr
    rfl

/-- A step runs the front command with the queue's rest, or lets the block's own clock act. -/
theorem step_cases {s t : State} (h : step s = .next t) :
    t = s.idle ∨ ∃ c rest, s.pending = c :: rest ∧ CommandStep { s with pending := rest } t := by
  unfold step at h
  split at h
  · cases h; exact .inl rfl
  · next c rest hp => exact .inr ⟨c, rest, hp, commandStep_of_exec h⟩

end Sys2Proof.Machine

/-! What the steps that touch several blocks leave alone: a phase sample field by field, and every step of the compensation unit
as one relation. -/

namespace Sys2Proof.Machine

/-! ### A phase sample, field by field (R4) -/

section
variable (s : State) (phases : Axes Phase) (sigok : Axes Bool) (refok : Bool)

@[simp] theorem State.sampleChannels_channels :
    (s.sampleChannels phases sigok refok).channels = s.axesAfter phases sigok refok := by simp [State.sampleChannels]
@[simp] theorem State.sampleChannels_sampled :
    (s.sampleChannels phases sigok refok).sampled = s.axesAfter phases sigok refok := by simp [State.sampleChannels]
@[simp] theorem State.sampleChannels_lostNow (a : Axis) :
    (s.sampleChannels phases sigok refok).lostNow.get a = (s.sampleAxis phases sigok refok a).lost := by
  simp [State.sampleChannels]
@[simp] theorem State.sampleChannels_refok : (s.sampleChannels phases sigok refok).refok = refok := by
  simp [State.sampleChannels]
@[simp] theorem State.sampleChannels_cu : (s.sampleChannels phases sigok refok).cu = s.cu := by
  simp [State.sampleChannels]
@[simp] theorem State.sampleChannels_point (p : Point) :
    (s.sampleChannels phases sigok refok).point p = s.point p := by simp [State.sampleChannels, State.point]
@[simp] theorem State.sampleChannels_table : (s.sampleChannels phases sigok refok).table = s.table := by
  simp [State.sampleChannels]
@[simp] theorem State.sampleChannels_index (p : Point) :
    (s.sampleChannels phases sigok refok).index p = s.index p := by simp [State.index]
@[simp] theorem State.sampleChannels_port : (s.sampleChannels phases sigok refok).port = s.port := by
  simp [State.sampleChannels]
@[simp] theorem State.sampleChannels_pointer : (s.sampleChannels phases sigok refok).pointer = s.pointer := by
  simp [State.sampleChannels]
@[simp] theorem State.sampleChannels_req : (s.sampleChannels phases sigok refok).req = s.req := by
  simp [State.sampleChannels]
@[simp] theorem State.sampleChannels_pending : (s.sampleChannels phases sigok refok).pending = s.pending := by
  simp [State.sampleChannels]
@[simp] theorem State.sampleChannels_routes :
    (s.sampleChannels phases sigok refok).notices.routes = s.notices.routes := by simp [State.sampleChannels]
@[simp] theorem State.sampleChannels_flag (k : EventKind) :
    (s.sampleChannels phases sigok refok).notices.flags.get k =
      (s.notices.flags.get k || (s.refok && !refok && decide (k = .refLost)) ||
        (anyAxis (fun a => (s.sampleAxis phases sigok refok a).lost) && decide (k = .axisLost))) := by
  simp [State.sampleChannels]

@[simp] theorem State.axesAfter_get (a : Axis) :
    (s.axesAfter phases sigok refok).get a = (s.sampleAxis phases sigok refok a).channel := Axes.get_ofFn _ _

/-- What the losses of a sample make of point `p` (R64). -/
def State.lossResult (p : Point) : PointResult :=
  (s.point p).takeLoss s.cu.stale fun a => (s.sampleAxis phases sigok refok a).lost

/-- What the position update of a sample makes of point `p`, behind the losses (R4, R64). -/
def State.updateResult (p : Point) : PointResult :=
  (s.lossResult phases sigok refok p).point.positionUpdate (s.axesAfter phases sigok refok) (s.index p) s.cu.stale

@[simp] theorem State.sampleUpdated_channels :
    (s.sampleUpdated phases sigok refok).channels = s.axesAfter phases sigok refok := by
  simp [State.sampleUpdated, State.updatePoint, State.handLoss]
@[simp] theorem State.sampleUpdated_sampled :
    (s.sampleUpdated phases sigok refok).sampled = s.axesAfter phases sigok refok := by
  simp [State.sampleUpdated, State.updatePoint, State.handLoss]
@[simp] theorem State.sampleUpdated_lostNow (a : Axis) :
    (s.sampleUpdated phases sigok refok).lostNow.get a = (s.sampleAxis phases sigok refok a).lost := by
  simp [State.sampleUpdated, State.updatePoint, State.handLoss]
@[simp] theorem State.sampleUpdated_refok : (s.sampleUpdated phases sigok refok).refok = refok := by
  simp [State.sampleUpdated, State.updatePoint, State.handLoss]
@[simp] theorem State.sampleUpdated_cu : (s.sampleUpdated phases sigok refok).cu = s.cu := by
  simp [State.sampleUpdated, State.updatePoint, State.handLoss]
@[simp] theorem State.sampleUpdated_table : (s.sampleUpdated phases sigok refok).table = s.table := by
  simp [State.sampleUpdated, State.updatePoint, State.handLoss]
@[simp] theorem State.sampleUpdated_index (p : Point) : (s.sampleUpdated phases sigok refok).index p = s.index p := by
  simp [State.index]
@[simp] theorem State.sampleUpdated_port : (s.sampleUpdated phases sigok refok).port = s.port := by
  simp [State.sampleUpdated, State.updatePoint, State.handLoss]
@[simp] theorem State.sampleUpdated_pointer : (s.sampleUpdated phases sigok refok).pointer = s.pointer := by
  simp [State.sampleUpdated, State.updatePoint, State.handLoss]
@[simp] theorem State.sampleUpdated_req : (s.sampleUpdated phases sigok refok).req = s.req := by
  simp [State.sampleUpdated, State.updatePoint, State.handLoss]
@[simp] theorem State.sampleUpdated_pending : (s.sampleUpdated phases sigok refok).pending = s.pending := by
  simp [State.sampleUpdated, State.updatePoint, State.handLoss]
@[simp] theorem State.sampleUpdated_routes :
    (s.sampleUpdated phases sigok refok).notices.routes = s.notices.routes := by
  simp [State.sampleUpdated, State.updatePoint, State.handLoss]

/-- Each point takes its losses and then its update, apart from the other (R64, R115). -/
@[simp] theorem State.sampleUpdated_point (p : Point) :
    (s.sampleUpdated phases sigok refok).point p = (s.updateResult phases sigok refok p).point := by
  cases p <;>
    simp [State.sampleUpdated, State.updatePoint, State.handLoss, State.takePoint_point, State.updateResult,
      State.lossResult, -State.point_mp0, -State.point_mp1]

theorem State.exists_point {P : Point → Prop} : (∃ p, P p) ↔ P .mp0 ∨ P .mp1 :=
  ⟨fun ⟨p, h⟩ => by cases p; exacts [.inl h, .inr h], fun h => h.elim (fun h => ⟨_, h⟩) fun h => ⟨_, h⟩⟩

/-- The notices of a phase sample before its examination (R14, R15, R64, R115). -/
theorem State.sampleUpdated_flag (k : EventKind) :
    (s.sampleUpdated phases sigok refok).notices.flags.get k = true ↔
      s.notices.flags.get k = true ∨ (k = .refLost ∧ s.refok = true ∧ refok = false) ∨
        (k = .axisLost ∧ ∃ a, (s.sampleAxis phases sigok refok a).lost = true) ∨
        ∃ p, k ∈ (s.lossResult phases sigok refok p).events ∨ k ∈ (s.updateResult phases sigok refok p).events := by
  simp only [State.sampleUpdated, State.updatePoint, State.handLoss, State.takePoint_flag, State.takePoint_point,
    State.sampleChannels_flag, State.sampleChannels_point, State.sampleChannels_cu, State.takePoint_cu,
    State.takePoint_index, State.sampleChannels_index, State.takePoint_channels, State.sampleChannels_channels,
    State.updateResult, State.lossResult, State.exists_point, Bool.or_eq_true, Bool.and_eq_true, decide_eq_true_eq,
    anyAxis_iff, Bool.not_eq_true', reduceCtorEq, if_true, if_false]
  tauto

end

/-! ### The compensation unit as one relation

A step of the unit changes its own settings and notices, and takes a commit or none. -/

structure MediumStep (s t : State) : Prop where
  channels : (t.channels = s.channels ∧ t.cu.activeW = s.cu.activeW) ∨
    ∀ a, t.channels.get a = (s.channels.get a).recompensate (t.cu.activeW.get a)
  points : ∀ p, t.point p = s.point p ∨ t.point p = (s.point p).takeCommit
  sampled : t.sampled = s.sampled
  lostNow : t.lostNow = s.lostNow
  refok : t.refok = s.refok
  table : t.table = s.table
  port : t.port = s.port
  pointer : t.pointer = s.pointer
  req : t.req = s.req
  pending : t.pending = s.pending
  response : t.notices.flags.get .responseReady = s.notices.flags.get .responseReady

theorem MeasuringPoint.takeCommit_takeCommit (m : MeasuringPoint) : m.takeCommit.takeCommit = m.takeCommit := by
  rcases m.takeCommit_cases with ⟨_, h⟩ | ⟨d, dir, r, _, h⟩
  · rw [h, h]
  · rw [h]; rfl

theorem MediumStep.refl (s : State) : MediumStep s s :=
  ⟨.inl ⟨rfl, rfl⟩, fun _ => .inl rfl, rfl, rfl, rfl, rfl, rfl, rfl, rfl, rfl, rfl⟩

theorem MediumStep.trans {s t u : State} (h : MediumStep s t) (g : MediumStep t u) : MediumStep s u where
  channels := by
    rcases g.channels with ⟨gc, gw⟩ | gc
    · rcases h.channels with ⟨hc, hw⟩ | hc
      · exact .inl ⟨gc.trans hc, gw.trans hw⟩
      · exact .inr fun a => by rw [gc, gw]; exact hc a
    · refine .inr fun a => (gc a).trans ?_
      rcases h.channels with ⟨hc, _⟩ | hc
      · rw [hc]
      · rw [hc a]; rfl
  points := fun p => by
    rcases g.points p with gp | gp <;> rcases h.points p with hp | hp <;> rw [gp, hp]
    · exact .inl rfl
    · exact .inr rfl
    · exact .inr rfl
    · exact .inr (MeasuringPoint.takeCommit_takeCommit _)
  sampled := g.sampled.trans h.sampled
  lostNow := g.lostNow.trans h.lostNow
  refok := g.refok.trans h.refok
  table := g.table.trans h.table
  port := g.port.trans h.port
  pointer := g.pointer.trans h.pointer
  req := g.req.trans h.req
  pending := g.pending.trans h.pending
  response := g.response.trans h.response

/-- Settings of the unit written, its active W kept. -/
theorem MediumStep.setCu (s : State) {c : Cu} (h : c.activeW = s.cu.activeW) : MediumStep s { s with cu := c } :=
  ⟨.inl ⟨rfl, h⟩, fun _ => .inl rfl, rfl, rfl, rfl, rfl, rfl, rfl, rfl, rfl, rfl⟩

theorem MediumStep.commit (s : State) (k : CommitKind) : MediumStep s (s.commit k) := by
  rcases s.commit_cases k with ⟨_, h⟩ | ⟨ps, _, h⟩
  · rw [h]; exact .refl s
  · have hw : (s.commit k).cu.activeW = ps.w := by rw [h]; simp [State.applyCommit]
    refine ⟨.inr fun a => ?_, s.commit_point k, by simp, by simp, by simp, by simp, by simp, by simp, by simp, by simp, ?_⟩
    · rw [hw, h]; simp
    · rw [h]; simp

theorem MediumStep.examine (s : State) : MediumStep s s.examine := by
  rcases s.examine_eq with h | ⟨k, _, h⟩
  · rw [h]; exact .refl s
  · rw [h]; exact .commit s k

theorem MediumStep.staleTest (s : State) : MediumStep s s.staleTest := by
  rcases s.staleTest_cases with ⟨h, _⟩ | ⟨h, _⟩
  · rw [h]; exact .refl s
  · rw [h]; exact ⟨.inl ⟨rfl, rfl⟩, fun _ => .inl rfl, rfl, rfl, rfl, rfl, rfl, rfl, rfl, rfl, by simp⟩

theorem MediumStep.expiryCommit (s : State) : MediumStep s s.expiryCommit := by
  have hd : MediumStep s { s with cu := s.cu.raiseDebt } :=
    .setCu s (by unfold Cu.raiseDebt; split <;> rfl)
  rcases s.expiryCommit_cases with ⟨_, h⟩ | ⟨_, h⟩
  · rw [h]; exact hd.trans (.commit _ _)
  · rw [h]; exact hd.trans (.examine _)

theorem MediumStep.expire (s : State) : MediumStep s s.expire :=
  ((MediumStep.setCu s (c := { s.cu with timerCount := s.cu.timerPeriod, age := bump8 s.cu.age }) rfl).trans
    (.staleTest _)).trans (.expiryCommit _)

theorem MediumStep.tick (s : State) : MediumStep s s.reduceTimer := .setCu s rfl

theorem MediumStep.supply (s : State) (generation : BitVec 16) (mask : Byte) (w : Axes (BitVec 32)) :
    MediumStep s { s with cu := s.cu.supply generation mask w }.examine :=
  (MediumStep.setCu s (c := s.cu.supply generation mask w) rfl).trans (.examine _)

theorem MediumStep.policyPanic (s : State) : MediumStep s s.policyPanic := by
  rcases s.policyPanic_cases with ⟨h, _⟩ | ⟨h, _⟩
  · rw [h]; exact .refl s
  · rw [h]; exact .commit s _

theorem MediumStep.setPolicy (s : State) (hp panic stale : Byte) (guard : BitVec 32) (hold : Byte) :
    MediumStep s { s with cu := s.cu.setPolicy hp panic stale guard hold }.policyPanic.staleTest :=
  ((MediumStep.setCu s (c := s.cu.setPolicy hp panic stale guard hold) rfl).trans (.policyPanic _)).trans (.staleTest _)

theorem MediumStep.force (s : State) : MediumStep s { s with cu := s.cu.force } :=
  .setCu s (by unfold Cu.force; split <;> rfl)

theorem MediumStep.setTimer (s : State) (select : Byte) (period count : BitVec 16) (enable : Byte) :
    MediumStep s { s with cu := s.cu.setTimer select period count enable } := .setCu s rfl

/-! ### The port's steps change the port alone -/

/-- What an answer leaves alone. -/
@[simp] theorem State.answered_channels (s : State) (len : Nat) (r : Response) : (s.answered len r).channels = s.channels := rfl
@[simp] theorem State.answered_sampled (s : State) (len : Nat) (r : Response) : (s.answered len r).sampled = s.sampled := rfl
@[simp] theorem State.answered_lostNow (s : State) (len : Nat) (r : Response) : (s.answered len r).lostNow = s.lostNow := rfl
@[simp] theorem State.answered_cu (s : State) (len : Nat) (r : Response) : (s.answered len r).cu = s.cu := rfl
@[simp] theorem State.answered_point (s : State) (len : Nat) (r : Response) (p : Point) :
    (s.answered len r).point p = s.point p := rfl
@[simp] theorem State.answered_table (s : State) (len : Nat) (r : Response) : (s.answered len r).table = s.table := rfl

/-- Two states with the same blocks: everything but the two ports, the evaluator's pointer, the notices and the queue. -/
structure SameBlocks (s t : State) : Prop where
  channels : t.channels = s.channels
  sampled : t.sampled = s.sampled
  lostNow : t.lostNow = s.lostNow
  refok : t.refok = s.refok
  cu : t.cu = s.cu
  points : t.points = s.points
  table : t.table = s.table

theorem SameBlocks.point {s t : State} (h : SameBlocks s t) (p : Point) : t.point p = s.point p := by
  unfold State.point; rw [h.points]

theorem SameBlocks.index {s t : State} (h : SameBlocks s t) (p : Point) : t.index p = s.index p := by
  unfold State.index; rw [h.table]

theorem SameBlocks.trans {s t u : State} (h : SameBlocks s t) (g : SameBlocks t u) : SameBlocks s u :=
  ⟨g.channels.trans h.channels, g.sampled.trans h.sampled, g.lostNow.trans h.lostNow, g.refok.trans h.refok,
    g.cu.trans h.cu, g.points.trans h.points, g.table.trans h.table⟩

theorem SameBlocks.answered (s : State) (len : Nat) (r : Response) : SameBlocks s (s.answered len r) :=
  ⟨rfl, rfl, rfl, rfl, rfl, rfl, rfl⟩

theorem SameBlocks.setReq (s : State) (q : RequestPort) : SameBlocks s { s with req := q } :=
  ⟨rfl, rfl, rfl, rfl, rfl, rfl, rfl⟩

theorem PortStep.sameBlocks {s t : State} (h : PortStep s t) : SameBlocks s t := by
  cases h with
  | fall => rw [State.beginTransfer_eq]; exact .setReq s _
  | lByte => rw [State.decideFetch_eq]; exact .setReq s _
  | runOn sdi => rw [State.runOn_eq]; exact .setReq s _
  | rise n _ =>
    rcases s.finishFetch_cases n with ⟨_, _, _, e⟩ | ⟨_, e⟩ <;> (rw [e]; exact ⟨rfl, rfl, rfl, rfl, rfl, rfl, rfl⟩)
  | _ => exact ⟨rfl, rfl, rfl, rfl, rfl, rfl, rfl⟩

/-- A port step leaves the executor as it is. -/
theorem PortStep.executor {s t : State} (h : PortStep s t) : t.req.executor = s.req.executor := by
  cases h with
  | fall => unfold State.beginTransfer; split <;> rfl
  | lByte => unfold State.decideFetch; split <;> rfl
  | runOn sdi => unfold State.runOn; split <;> rfl
  | rise n _ => rcases s.finishFetch_cases n with ⟨_, _, _, e⟩ | ⟨_, e⟩ <;> simp [e, State.emptySlot]
  | _ => rfl

end Sys2Proof.Machine

/-! What an access of the executor or of the evaluator does to the table and the points (R82 to R96, R99, R134). -/

namespace Sys2Proof.Machine

/-! ### The executor's accesses -/

/-- What the access of job `j` makes of the part, apart from the grant. -/
inductive AccessStep (s : State) (j : Job) : State → Prop
  | none : AccessStep s j s
  | insert (n : Nat) (e : Entry) (defined : JobOk j → DefinitionOk e) (load : e.results = .load)
      (fresh : findKey (s.index e.point) e.key = .none) (lowest : s.table.lowestFree = some n)
      (order : ordered (s.index e.point) e.key e.lower e.upper = true) :
    AccessStep s j (s.insertEntry n e)
  | rewrite (p : Point) (key : Nat) (l : LiveEntry) (nominal : Int) (halfWidth : Nat) (hold trigger : Bool)
      (defined : JobOk j →
        InPositionRange nominal ∧ Config.halfWidthMin ≤ halfWidth ∧ halfWidth ≤ Config.halfWidthMax)
      (found : s.table.findEntry p key = some l) (closed : (s.point p).entryOpen l.item.slot = false)
      (order : ordered (s.index p) key (l.entry.amend nominal halfWidth hold trigger).lower
        (l.entry.amend nominal halfWidth hold trigger).upper = true) :
    AccessStep s j (s.rewriteEntry p l.item (l.entry.amend nominal halfWidth hold trigger))
  | clear (p : Point) (key : Nat) (l : LiveEntry) (found : s.table.findEntry p key = some l) :
    AccessStep s j
      (s.writeTable p l.item.slot
        { revision := nextRevision (s.table.slot l.item.slot).revision
          entry := some { l.entry with results := .load } }
        (replaceItem { l.item with revision := nextRevision (s.table.slot l.item.slot).revision } (s.index p)))
  | retire (p : Point) (it : IndexItem) (listed : it ∈ s.index p) (closed : (s.point p).entryOpen it.slot = false) :
    AccessStep s j (s.retireEntry p it)
  | restart : AccessStep s j s.restartAccess.state

theorem AccessStep.loadAccess (s : State) (p : Point) (key : Nat) (nominal : Int) (halfWidth : Nat)
    (hold trigger clamped : Bool) :
    AccessStep s (.load p key nominal halfWidth hold trigger clamped)
      (s.loadAccess (newEntry p key nominal halfWidth hold trigger) clamped).state := by
  unfold State.loadAccess
  split
  · exact .none
  · next hk =>
    split
    · exact .none
    · next n hn =>
      split
      · exact .none
      · next ho =>
        split
        · exact .none
        · refine .insert n _ (fun hj => ?_) rfl (by simpa using hk) hn (by simpa using ho)
          obtain ⟨h1, h2, h3⟩ := hj
          exact ⟨h1, h2, h3⟩

theorem AccessStep.amendAccess (s : State) (p : Point) (key : Nat) (nominal : Int) (halfWidth : Nat)
    (hold trigger clamped : Bool) :
    AccessStep s (.amend p key nominal halfWidth hold trigger clamped)
      (s.amendAccess p key nominal halfWidth hold trigger clamped).state := by
  unfold State.amendAccess
  split
  · exact .none
  · next l hl =>
    dsimp only
    split
    · exact .none
    · next hc =>
      split
      · exact .none
      · next ho =>
        split
        · exact .none
        · exact .rewrite p key l nominal halfWidth hold trigger (fun hj => hj.2) hl (by simpa using hc) (by simpa using ho)

theorem AccessStep.retireStep (s : State) (p : Point) (next last retired skipped : Nat) (j : Job) :
    AccessStep s j (s.retireStep p next last retired skipped).state := by
  unfold State.retireStep
  split
  · exact .none
  · next it hit =>
    split
    · exact .none
    · next hc => exact .retire p it (nextItem_some hit).1 (by simpa using hc)

/-- The access of every job is one of the cases. -/
theorem State.runJob_step (s : State) (j : Job) : AccessStep s j (s.runJob j).state := by
  cases j with
  | load p key nominal halfWidth hold trigger clamped => exact .loadAccess s p key nominal halfWidth hold trigger clamped
  | amend p key nominal halfWidth hold trigger clamped => exact .amendAccess s p key nominal halfWidth hold trigger clamped
  | clear p key =>
    unfold State.runJob State.clearAccess
    dsimp only
    split
    · exact .none
    · next l hl => exact .clear p key l hl
  | retire p next last retired skipped => exact .retireStep s p next last retired skipped _
  | lookup p key =>
    unfold State.runJob State.lookupAccess
    dsimp only
    split <;> exact .none
  | sweep p next copied records =>
    unfold State.runJob State.sweepStep
    dsimp only
    split <;> exact .none
  | restart => exact .restart

/-- A job whose parameters are checked asks next for a job whose parameters are checked (R143). -/
theorem State.runJob_next (s : State) {j : Job} (h : JobOk j) : ExecutorJobOk (.accessing (s.runJob j).next) := by
  have hret : ∀ (t : State) (p : Point) (k last a b : Nat), last ≤ 65535 →
      ExecutorJobOk (.accessing (t.retireNext p k last a b)) := by
    intro t p k last a b hl
    unfold State.retireNext
    split
    · exact hl
    · trivial
  cases j with
  | load p key nominal halfWidth hold trigger clamped =>
    unfold State.runJob State.loadAccess
    dsimp only
    split
    · trivial
    · split
      · trivial
      · split <;> [trivial; split <;> trivial]
  | amend p key nominal halfWidth hold trigger clamped =>
    unfold State.runJob State.amendAccess
    dsimp only
    split
    · trivial
    · split_ifs <;> trivial
  | clear p key =>
    unfold State.runJob State.clearAccess
    dsimp only
    split <;> trivial
  | retire p next last retired skipped =>
    unfold State.runJob State.retireStep
    dsimp only
    split
    · trivial
    · split <;> exact hret _ _ _ _ _ _ h
  | lookup p key =>
    unfold State.runJob State.lookupAccess
    dsimp only
    split <;> trivial
  | sweep p next copied records =>
    unfold State.runJob State.sweepStep
    dsimp only
    split
    · trivial
    · split
      · next hc => exact le_of_lt hc.1
      · trivial
  | restart => trivial

/-! ### What every access leaves alone -/

section
variable {s t : State} {j : Job}

theorem AccessStep.channels (h : AccessStep s j t) : t.channels = s.channels := by
  cases h <;> simp [State.insertEntry, State.rewriteEntry, State.retireEntry, State.restartAccess]
theorem AccessStep.sampled (h : AccessStep s j t) : t.sampled = s.sampled := by
  cases h <;> simp [State.insertEntry, State.rewriteEntry, State.retireEntry, State.restartAccess]
theorem AccessStep.lostNow (h : AccessStep s j t) : t.lostNow = s.lostNow := by
  cases h <;> simp [State.insertEntry, State.rewriteEntry, State.retireEntry, State.restartAccess]
theorem AccessStep.refok (h : AccessStep s j t) : t.refok = s.refok := by
  cases h <;> simp [State.insertEntry, State.rewriteEntry, State.retireEntry, State.restartAccess]
theorem AccessStep.cu (h : AccessStep s j t) : t.cu = s.cu := by
  cases h <;> simp [State.insertEntry, State.rewriteEntry, State.retireEntry, State.restartAccess]
theorem AccessStep.pending (h : AccessStep s j t) : t.pending = s.pending := by
  cases h <;> simp [State.insertEntry, State.rewriteEntry, State.retireEntry, State.restartAccess]

end

theorem State.handEdit_point (s : State) (p q : Point) (key : Nat) (b a : Option IndexItem) :
    (s.handEdit p key b a).point q =
      if q = p then ((s.point p).handEdit (s.index p) key b a).point else s.point q := by
  unfold State.handEdit
  rw [State.takePoint_point]

/-- A point after an access is as it was, or an edit has been handed to it, or it was restarted. -/
theorem AccessStep.point {s t : State} {j : Job} (h : AccessStep s j t) (q : Point) :
    t.point q = s.point q ∨ (∃ key b a, t.point q = ((s.point q).handEdit (t.index q) key b a).point) ∨
      t.point q = (s.point q).restart := by
  have hedit : ∀ (u : State) (p : Point) (key : Nat) (b a : Option IndexItem), (∀ q, u.point q = s.point q) →
      (u.handEdit p key b a).point q = s.point q ∨
        ∃ key' b' a', (u.handEdit p key b a).point q =
          ((s.point q).handEdit ((u.handEdit p key b a).index q) key' b' a').point := by
    intro u p key b a hu
    rw [State.handEdit_point, State.handEdit_index, hu p]
    split
    · next hq => subst hq; exact .inr ⟨key, b, a, rfl⟩
    · exact .inl (hu q)
  cases h with
  | none => exact .inl rfl
  | insert n e => exact (hedit (s.writeTable e.point n _ _) e.point e.key _ _ fun _ => rfl).imp_right .inl
  | rewrite p key l => exact (hedit (s.writeTable p l.item.slot _ _) p l.item.key _ _ fun _ => rfl).imp_right .inl
  | clear p key l => exact .inl rfl
  | retire p it => exact (hedit (s.writeTable p it.slot _ _) p it.key _ _ fun _ => rfl).imp_right .inl
  | restart => right; right; cases q <;> rfl

@[simp] theorem AccessResult.grant_channels (r : AccessResult) : r.grant.channels = r.state.channels := rfl
@[simp] theorem AccessResult.grant_sampled (r : AccessResult) : r.grant.sampled = r.state.sampled := rfl
@[simp] theorem AccessResult.grant_lostNow (r : AccessResult) : r.grant.lostNow = r.state.lostNow := rfl
@[simp] theorem AccessResult.grant_cu (r : AccessResult) : r.grant.cu = r.state.cu := rfl
@[simp] theorem AccessResult.grant_point (r : AccessResult) (p : Point) : r.grant.point p = r.state.point p := rfl
@[simp] theorem AccessResult.grant_table (r : AccessResult) : r.grant.table = r.state.table := rfl
@[simp] theorem AccessResult.grant_index (r : AccessResult) (p : Point) : r.grant.index p = r.state.index p := rfl

/-! ### The evaluator's access -/

/-- A record that passes the revision check found its entry in its slot. -/
theorem LineTable.recordEntry_eq_some_iff (t : LineTable) (r : PassRecord) (e : Entry) :
    t.recordEntry r = some e ↔ t.slot r.slot = { revision := r.revision, entry := some e } := by
  unfold LineTable.recordEntry
  constructor
  · intro h
    split at h
    · next hr => rw [← hr, ← h]
    · cases h
  · intro h
    rw [h, if_pos rfl]

theorem LineTable.recordEntry_eq_none_iff (t : LineTable) (r : PassRecord) :
    t.recordEntry r = none ↔ (t.slot r.slot).entry = none ∨ (t.slot r.slot).revision ≠ r.revision := by
  unfold LineTable.recordEntry
  split
  · next hr => simp [hr]
  · next hr => simp [hr]

/-- The evaluator applies a record to its entry, or counts it as orphaned (R134). -/
theorem State.evaluate_cases (s : State) (p : Point) (r : PassRecord) :
    (∃ e, s.table.slot r.slot = { revision := r.revision, entry := some e } ∧ s.evaluate p r = s.applyRecord r e) ∨
      (((s.table.slot r.slot).entry = none ∨ (s.table.slot r.slot).revision ≠ r.revision) ∧
        s.evaluate p r = s.setPoint p (s.point p).countOrphan) := by
  unfold State.evaluate
  cases h : s.table.recordEntry r with
  | some e => exact .inl ⟨e, (LineTable.recordEntry_eq_some_iff _ _ _).1 h, rfl⟩
  | none => exact .inr ⟨(LineTable.recordEntry_eq_none_iff _ _).1 h, rfl⟩

section
variable (s : State) (r : PassRecord) (e : Entry)

@[simp] theorem State.applyRecord_channels : (s.applyRecord r e).channels = s.channels := by simp [State.applyRecord]
@[simp] theorem State.applyRecord_sampled : (s.applyRecord r e).sampled = s.sampled := by simp [State.applyRecord]
@[simp] theorem State.applyRecord_lostNow : (s.applyRecord r e).lostNow = s.lostNow := by simp [State.applyRecord]
@[simp] theorem State.applyRecord_refok : (s.applyRecord r e).refok = s.refok := by simp [State.applyRecord]
@[simp] theorem State.applyRecord_cu : (s.applyRecord r e).cu = s.cu := by simp [State.applyRecord]
@[simp] theorem State.applyRecord_point (p : Point) : (s.applyRecord r e).point p = s.point p := by
  simp [State.applyRecord, State.point]
@[simp] theorem State.applyRecord_req : (s.applyRecord r e).req = s.req := by simp [State.applyRecord]
@[simp] theorem State.applyRecord_port : (s.applyRecord r e).port = s.port := by simp [State.applyRecord]
@[simp] theorem State.applyRecord_pending : (s.applyRecord r e).pending = s.pending := by simp [State.applyRecord]
@[simp] theorem State.applyRecord_routes : (s.applyRecord r e).notices.routes = s.notices.routes := by
  simp [State.applyRecord]
@[simp] theorem State.applyRecord_flag (k : EventKind) :
    (s.applyRecord r e).notices.flags.get k =
      (s.notices.flags.get k || (r.outcome.isMiss && decide (k = .entryMissed))) := by
  simp [State.applyRecord]
@[simp] theorem State.applyRecord_table : (s.applyRecord r e).table =
    s.table.setSlot r.slot
      { revision := r.revision, entry := some { e with results := e.results.applyPass e.nominal r } } := by
  simp [State.applyRecord]

variable (p : Point)

@[simp] theorem State.evaluate_channels : (s.evaluate p r).channels = s.channels := by
  rcases s.evaluate_cases p r with ⟨e, _, h⟩ | ⟨_, h⟩ <;> simp [h]
@[simp] theorem State.evaluate_sampled : (s.evaluate p r).sampled = s.sampled := by
  rcases s.evaluate_cases p r with ⟨e, _, h⟩ | ⟨_, h⟩ <;> simp [h]
@[simp] theorem State.evaluate_lostNow : (s.evaluate p r).lostNow = s.lostNow := by
  rcases s.evaluate_cases p r with ⟨e, _, h⟩ | ⟨_, h⟩ <;> simp [h]
@[simp] theorem State.evaluate_refok : (s.evaluate p r).refok = s.refok := by
  rcases s.evaluate_cases p r with ⟨e, _, h⟩ | ⟨_, h⟩ <;> simp [h]
@[simp] theorem State.evaluate_cu : (s.evaluate p r).cu = s.cu := by
  rcases s.evaluate_cases p r with ⟨e, _, h⟩ | ⟨_, h⟩ <;> simp [h]
@[simp] theorem State.evaluate_req : (s.evaluate p r).req = s.req := by
  rcases s.evaluate_cases p r with ⟨e, _, h⟩ | ⟨_, h⟩ <;> simp [h]
@[simp] theorem State.evaluate_port : (s.evaluate p r).port = s.port := by
  rcases s.evaluate_cases p r with ⟨e, _, h⟩ | ⟨_, h⟩ <;> simp [h]
@[simp] theorem State.evaluate_pending : (s.evaluate p r).pending = s.pending := by
  rcases s.evaluate_cases p r with ⟨e, _, h⟩ | ⟨_, h⟩ <;> simp [h]
@[simp] theorem State.evaluate_routes : (s.evaluate p r).notices.routes = s.notices.routes := by
  rcases s.evaluate_cases p r with ⟨e, _, h⟩ | ⟨_, h⟩ <;> simp [h]
@[simp] theorem State.evaluate_index : (s.evaluate p r).table.index = s.table.index := by
  rcases s.evaluate_cases p r with ⟨e, _, h⟩ | ⟨_, h⟩ <;> simp [h]

/-- A point after an evaluation is as it was, or has counted an orphaned record (R134). -/
theorem State.evaluate_point (q : Point) :
    (s.evaluate p r).point q = s.point q ∨ (s.evaluate p r).point q = (s.point q).countOrphan := by
  rcases s.evaluate_cases p r with ⟨e, _, h⟩ | ⟨_, h⟩
  · exact .inl (by simp [h])
  · rw [h, State.setPoint_point]
    split
    · next hq => subst hq; exact .inr rfl
    · exact .inl rfl

end

section
variable (s : State) (p : Point)

@[simp] theorem State.grantEvaluator_channels : (s.grantEvaluator p).channels = s.channels := rfl
@[simp] theorem State.grantEvaluator_sampled : (s.grantEvaluator p).sampled = s.sampled := rfl
@[simp] theorem State.grantEvaluator_lostNow : (s.grantEvaluator p).lostNow = s.lostNow := rfl
@[simp] theorem State.grantEvaluator_refok : (s.grantEvaluator p).refok = s.refok := rfl
@[simp] theorem State.grantEvaluator_cu : (s.grantEvaluator p).cu = s.cu := rfl
@[simp] theorem State.grantEvaluator_point (q : Point) : (s.grantEvaluator p).point q = s.point q := rfl
@[simp] theorem State.grantEvaluator_table : (s.grantEvaluator p).table = s.table := rfl
@[simp] theorem State.grantEvaluator_index (q : Point) : (s.grantEvaluator p).index q = s.index q := rfl
@[simp] theorem State.grantEvaluator_req : (s.grantEvaluator p).req = s.req := rfl
@[simp] theorem State.grantEvaluator_pending : (s.grantEvaluator p).pending = s.pending := rfl
@[simp] theorem State.grantEvaluator_notices : (s.grantEvaluator p).notices = s.notices := rfl
@[simp] theorem State.grantEvaluator_pointer : (s.grantEvaluator p).pointer = p.other := rfl

end

/-! ### The block's own clock -/

/-- What an idle step leaves: the part with a command queued, or one CLKIN period later. -/
theorem State.idle_cases (s : State) :
    (∃ i, s.dueGrant = some i ∧ s.idle = { s with pending := [i] }) ∨
      (s.dueGrant = none ∧ s.idle = { s.clkPeriod with pending := s.clkPeriod.due }) := by
  unfold State.idle
  cases h : s.dueGrant with
  | some i => exact .inl ⟨i, rfl, rfl⟩
  | none => exact .inr ⟨rfl, rfl⟩

@[simp] theorem State.clkPeriod_point (s : State) (p : Point) : s.clkPeriod.point p = (s.point p).clkPeriod := by
  cases p <;> rfl

end Sys2Proof.Machine

/-! The channels at every step, of 01_fringe_channels.md and 02_length_scaling_and_the_medium.md (R2, R5 to R20, R26 to R28). -/

namespace Sys2Proof.Proofs.Channels

open Sys2Proof.Machine

/-! ### What a phase sample does to a channel that is as it should be -/

variable {c : Channel} {w : Int}

/-- Entry into LOST, with the count as it is or at an end of its range (R9, R12, R15). -/
theorem ChannelOk.enterLost (h : ChannelOk c w) {n : Int} (hn : -Config.countMax ≤ n ∧ n ≤ Config.countMax)
    {cause : LostCause} (hc : cause ≠ .none) : ChannelOk ({ c with count := n }.enterLost cause).channel w :=
  { h with
    count_range := hn
    hold_range := Nat.zero_le _
    off_clear := fun hs => by cases hs
    lost_iff_cause := iff_of_true rfl hc
    hold_counting := fun hh => absurd rfl hh
    tracking_seeded := fun hs => by cases hs }

theorem ChannelOk.countStep (h : ChannelOk c w) (hs : c.state = .relative ∨ c.state = .tracking) (last phase : Phase) :
    ChannelOk (c.countStep last phase).channel w := by
  rcases c.countStep_cases last phase with e | e | e | ⟨h1, h2, h3, h4, e⟩ <;> rw [e]
  · exact ChannelOk.enterLost h h.count_range (by decide)
  · exact ChannelOk.enterLost h (by decide) (by decide)
  · exact ChannelOk.enterLost h (by decide) (by decide)
  · exact
      { h with
        count_range := ⟨h3, h4⟩
        history_length := appendStep_length h.history_length _
        history_steps := fun d hd => (mem_appendStep hd).elim (h.history_steps d) fun e => e ▸ ⟨h1, h2⟩
        off_clear := fun ho => by rw [show c.state = .off from ho] at hs; rcases hs with hs | hs <;> cases hs
        hold_counting := fun _ => ⟨hs, rfl⟩
        tracking_seeded := fun _ => rfl }

theorem ChannelOk.holdStep (h : ChannelOk c w) (hs : c.state = .relative ∨ c.state = .tracking) (hp : c.seeded = true) :
    ChannelOk c.holdStep.channel w := by
  unfold Channel.holdStep
  split
  · exact ChannelOk.enterLost h h.count_range (by decide)
  · next hlt =>
    have hd := h.dropLimit_range
    exact
      { h with
        hold_range := show c.hold + 1 ≤ 255 by omega
        off_clear := fun ho => by rw [show c.state = .off from ho] at hs; rcases hs with hs | hs <;> cases hs
        hold_counting := fun _ => ⟨hs, hp⟩ }

/-- The hold ends and the dropout count rises (R13). -/
theorem ChannelOk.endHold (h : ChannelOk c w) : ChannelOk { c with hold := 0, dropouts := bump8 c.dropouts } w :=
  { h with
    hold_range := Nat.zero_le _
    dropouts_range := bump8_le _
    off_clear := fun ho => let ⟨h1, h2, _, h4⟩ := h.off_clear ho; ⟨h1, h2, rfl, h4⟩
    hold_counting := fun hh => absurd rfl hh }

/-- A phase taken by a channel that has none, or by one that is LOST (R6, R16). -/
theorem ChannelOk.setPhase (h : ChannelOk c w) (ho : c.state ≠ .off) (hh : c.hold = 0) {φ : Option Phase}
    (ht : c.state = .tracking → φ.isSome = true) : ChannelOk { c with lastPhase := φ } w :=
  { h with
    off_clear := fun hs => absurd hs ho
    hold_counting := fun hne => absurd hh hne
    tracking_seeded := ht }

theorem ChannelOk.countingSample (h : ChannelOk c w) (hs : c.state = .relative ∨ c.state = .tracking) (phase : Phase)
    (good : Bool) : ChannelOk (c.countingSample phase good).channel w := by
  unfold Channel.countingSample
  split
  · next hn =>
    cases good with
    | false => exact h
    | true =>
      have hh : c.hold = 0 := by
        by_contra hne
        have := (h.hold_counting hne).2
        simp [Channel.seeded, hn] at this
      exact ChannelOk.setPhase h (by rintro ho; rw [ho] at hs; rcases hs with hs | hs <;> cases hs) hh fun _ => rfl
  · next last hl =>
    split_ifs
    · exact ChannelOk.countStep (ChannelOk.endHold h) hs last phase
    · exact ChannelOk.countStep h hs last phase
    · exact ChannelOk.holdStep h hs (by simp [Channel.seeded, hl])

/-- A phase sample keeps a channel as it should be (R4, R5). -/
theorem ChannelOk.sample (h : ChannelOk c w) (phase : Phase) (sigok refok : Bool) :
    ChannelOk (c.sample phase sigok refok).channel w := by
  have h' : ChannelOk { c with sigok := sigok } w := { h with }
  unfold Channel.sample
  dsimp only
  split
  · exact h'
  · next hs => exact ChannelOk.countingSample h' (.inl hs) _ _
  · next hs => exact ChannelOk.countingSample h' (.inr hs) _ _
  · next hs =>
    have hs : c.state = .lost := hs
    have hh : c.hold = 0 := by
      by_contra hne
      rcases (h.hold_counting hne).1 with hr | hr <;> rw [hs] at hr <;> cases hr
    exact ChannelOk.setPhase h' (by simp [hs]) hh (by simp [hs])

/-! ### What the requests and a commit do -/

theorem ChannelOk.recompensate (h : ChannelOk c w) (v : Int) : ChannelOk (c.recompensate v) v :=
  { h with compensated := rfl }

theorem axisSettingsValid_iff (wavelength : BitVec 32) (fold : Byte) :
    axisSettingsValid wavelength fold = true ↔
      (Config.lambdaMin ≤ wavelength.toNat ∧ wavelength.toNat ≤ Config.lambdaMax) ∧ (fold.toNat = 1 ∨ fold.toNat = 2) := by
  simp only [axisSettingsValid, Bool.and_eq_true, decide_eq_true_eq, ← BitVec.toNat_inj]
  rfl

theorem ChannelOk.configure (h : ChannelOk c w) (fitted invert : Bool) {wavelength fold : Nat} (drop : Nat)
    (hw : Config.lambdaMin ≤ wavelength ∧ wavelength ≤ Config.lambdaMax) (hf : fold = 1 ∨ fold = 2) :
    ChannelOk (c.configure w fitted wavelength fold invert drop) w := by
  unfold Channel.configure
  dsimp only
  split
  · next hsame =>
    exact
      { h with
        wavelength_range := hw
        fold_values := hf
        dropLimit_range := clampNat_range (by decide) drop
        scale := by rw [← hsame.1, ← hsame.2]; exact h.scale }
  · exact
      { h with
        wavelength_range := hw
        fold_values := hf
        dropLimit_range := clampNat_range (by decide) drop
        scale := rfl
        compensated := rfl }

theorem ChannelOk.fit (h : ChannelOk c w) : ChannelOk (c.fit w) w :=
  { h with
    count_range := show -Config.countMax ≤ 0 ∧ 0 ≤ Config.countMax by decide
    hold_range := Nat.zero_le _
    history_length := Nat.zero_le _
    history_steps := by simp [Channel.fit, Channel.rescale]
    dropouts_range := Nat.zero_le _
    scale := rfl
    compensated := rfl
    off_clear := fun hs => by cases hs
    lost_iff_cause := by simp [Channel.fit, Channel.rescale]
    hold_counting := fun hh => absurd rfl hh
    tracking_seeded := fun hs => by cases hs }

theorem ChannelOk.unfit (h : ChannelOk c w) : ChannelOk c.unfit w :=
  { h with
    count_range := show -Config.countMax ≤ 0 ∧ 0 ≤ Config.countMax by decide
    hold_range := Nat.zero_le _
    history_length := Nat.zero_le _
    history_steps := by simp [Channel.unfit]
    off_clear := fun _ => ⟨rfl, rfl, rfl, rfl⟩
    lost_iff_cause := by simp [Channel.unfit]
    hold_counting := fun hh => absurd rfl hh
    tracking_seeded := fun hs => by cases hs }

theorem ChannelOk.setFitted (h : ChannelOk c w) (fitted : Bool) : ChannelOk (c.setFitted w fitted) w := by
  unfold Channel.setFitted
  split_ifs
  exacts [ChannelOk.fit h, h, h, ChannelOk.unfit h]

theorem countInRange_iff (v : Int) : countInRange v = true ↔ -Config.countMax ≤ v ∧ v ≤ Config.countMax := by
  simp [countInRange]

theorem Channel.presettable_iff (c : Channel) (refok : Bool) :
    c.presettable refok = true ↔ c.state ≠ .off ∧ c.sigok = true ∧ refok = true ∧ c.seeded = true := by
  simp [Channel.presettable, and_assoc]

theorem ChannelOk.preset (h : ChannelOk c w) {v : Int} (hv : countInRange v = true) (hs : c.seeded = true) :
    ChannelOk (c.preset v) w :=
  { h with
    count_range := (countInRange_iff v).1 hv
    off_clear := fun ho => by cases ho
    lost_iff_cause := by simp [Channel.preset]
    hold_counting := fun _ => ⟨.inr rfl, hs⟩
    tracking_seeded := fun _ => hs }

/-- A channel after power-on (R25, R42). -/
theorem channelOk_reset : ChannelOk Channel.reset 0 where
  count_range := by decide
  hold_range := by decide
  history_length := by decide
  history_steps := by simp [Channel.reset]
  dropouts_range := by decide
  wavelength_range := by decide
  fold_values := by decide
  dropLimit_range := by decide
  scale := by decide
  compensated := by decide
  off_clear := by decide
  lost_iff_cause := by decide
  hold_counting := by decide
  tracking_seeded := by decide

/-! ### The channels at every step -/

/-- The invariant speaks of the channels and the active W alone. -/
theorem channelsOk_of_eq {s t : State} (h : s.ChannelsOk) (hc : t.channels = s.channels)
    (hw : t.cu.activeW = s.cu.activeW) : t.ChannelsOk := fun a => by rw [hc, hw]; exact h a

theorem channelsOk_of_sameBlocks {s t : State} (h : s.ChannelsOk) (b : SameBlocks s t) : t.ChannelsOk :=
  channelsOk_of_eq h b.channels (by rw [b.cu])

theorem channelsOk_mediumStep {s t : State} (h : s.ChannelsOk) (m : MediumStep s t) : t.ChannelsOk := by
  rcases m.channels with ⟨hc, hw⟩ | hc
  · exact channelsOk_of_eq h hc hw
  · intro a
    rw [hc a]
    exact ChannelOk.recompensate (h a) _

theorem channelsOk_sampleUpdated {s : State} (h : s.ChannelsOk) (phases : Axes Phase) (sigok : Axes Bool) (refok : Bool) :
    (s.sampleUpdated phases sigok refok).ChannelsOk := fun a => by
  simpa [State.sampleAxis] using ChannelOk.sample (h a) (phases.get a) (sigok.get a) refok

theorem channelsOk_setChannel {s : State} (h : s.ChannelsOk) {a : Axis} {c : Channel}
    (hc : ChannelOk c (s.cu.activeW.get a)) : { s with channels := s.channels.set a c }.ChannelsOk := fun b => by
  show ChannelOk ((s.channels.set a c).get b) _
  rw [Axes.get_set]
  split
  · next hb => rw [hb]; exact hc
  · exact h b

theorem channelsOk_eventStep {s t : State} (h : s.ChannelsOk) (e : EventStep s t) : t.ChannelsOk := by
  cases e with
  | phaseSample phases sigok refok => exact channelsOk_mediumStep (channelsOk_sampleUpdated h phases sigok refok) (.examine _)
  | tick => exact channelsOk_mediumStep h (.tick s)
  | expiry => exact channelsOk_mediumStep h (.expire s)
  | _ => exact h

theorem channelsOk_requestStep {s u : State} (h : s.ChannelsOk) (r : RequestStep s u) : u.ChannelsOk := by
  cases r with
  | configureAxis a fitted invert wavelength fold drop valid unused =>
    obtain ⟨hw, hf⟩ := (axisSettingsValid_iff _ _).1 valid
    exact channelsOk_setChannel h (ChannelOk.setFitted (ChannelOk.configure (h a) fitted invert drop hw hf) fitted)
  | presetAxis a value range ok =>
    simp only [State.presettable, Bool.and_eq_true, Channel.presettable_iff] at ok
    exact channelsOk_setChannel h (ChannelOk.preset (h a) range ok.1.2.2.2)
  | supplyMedium generation mask w => exact channelsOk_mediumStep h (.supply s generation mask w)
  | setPolicy hp panic stale guard hold => exact channelsOk_mediumStep h (.setPolicy s hp panic stale guard hold)
  | forceCommit => exact channelsOk_mediumStep h (.force s)
  | setTimer select period count enable => exact channelsOk_mediumStep h (.setTimer s select period count enable)
  | startScan p first last stride _ _ _ => exact channelsOk_of_eq h (by simp) (by simp)
  | acknowledgeHalt p _ => exact channelsOk_of_eq h (by simp) (by simp)
  | _ => exact h

theorem channelsOk_reset : State.reset.ChannelsOk := fun a => by
  simpa [State.reset, Cu.reset] using channelOk_reset

/-- Every command keeps the channels as they should be. -/
theorem channelsOk_commandStep {s t : State} (h : s.ChannelsOk) (c : CommandStep s t) : t.ChannelsOk := by
  cases c with
  | event e => exact channelsOk_eventStep h e
  | answered len r _ q => exact channelsOk_of_sameBlocks (channelsOk_requestStep h q) (.answered _ len r)
  | port p => exact channelsOk_of_sameBlocks h p.sameBlocks
  | access j _ => exact channelsOk_of_eq h (s.runJob_step j).channels (by rw [AccessResult.grant_cu, (s.runJob_step j).cu])
  | evaluate r rest _ _ => exact channelsOk_of_eq h (by simp) (by simp)
  | powerOn => exact channelsOk_reset
  | _ => exact h

/-! ### The axes of the last sample (R46) -/

theorem sampledOk_of_eq {s t : State} (h : s.SampledOk) (he : t.sampled = s.sampled) : t.SampledOk := fun a => by
  rw [he]; exact h a

theorem sampledOk_sampleUpdated {s : State} (hc : s.ChannelsOk) (hw : CuOk s.cu) (phases : Axes Phase)
    (sigok : Axes Bool) (refok : Bool) : (s.sampleUpdated phases sigok refok).SampledOk := fun a => by
  obtain ⟨hlo, hhi⟩ := hw.active_range.1 a
  refine ⟨s.cu.activeW.get a, hlo, hhi, ?_⟩
  simpa [State.sampleAxis] using ChannelOk.sample (hc a) (phases.get a) (sigok.get a) refok

theorem sampled_requestStep {s u : State} (r : RequestStep s u) : u.sampled = s.sampled := by
  cases r with
  | supplyMedium generation mask w => exact (MediumStep.supply s generation mask w).sampled
  | setPolicy hp panic stale guard hold => exact (MediumStep.setPolicy s hp panic stale guard hold).sampled
  | startScan p first last stride _ _ _ => simp
  | acknowledgeHalt p _ => simp
  | _ => rfl

theorem sampledOk_reset : State.reset.SampledOk := fun a =>
  ⟨0, by decide, by decide, by simpa [State.reset] using channelOk_reset⟩

theorem sampledOk_commandStep {s t : State} (hc : s.ChannelsOk) (hw : CuOk s.cu) (h : s.SampledOk)
    (c : CommandStep s t) : t.SampledOk := by
  cases c with
  | event e =>
    cases e with
    | phaseSample phases sigok refok =>
      exact sampledOk_of_eq (sampledOk_sampleUpdated hc hw phases sigok refok) (by simp)
    | expiry => exact sampledOk_of_eq h (MediumStep.expire s).sampled
    | _ => exact h
  | @answered u len r _ q => exact sampledOk_of_eq (t := u) h (sampled_requestStep q)
  | port p => exact sampledOk_of_eq h p.sameBlocks.sampled
  | access j _ => exact sampledOk_of_eq h (s.runJob_step j).sampled
  | evaluate r rest _ _ => exact sampledOk_of_eq h (by simp)
  | powerOn => exact sampledOk_reset
  | _ => exact h

/-! ### The axes that a sample of this moment lost (R16, R20, R23) -/

/-- A channel that a sample of this moment put in LOST may stand so now. -/
def StillLost (c : Channel) : Prop := c.state = .lost ∨ c.lastPhase = none

/-- A channel that enters LOST at a sample is LOST (R15). -/
theorem countStep_lost {c : Channel} {last phase : Phase} (h : (c.countStep last phase).lost = true) :
    (c.countStep last phase).channel.state = .lost := by
  rcases c.countStep_cases last phase with e | e | e | ⟨_, _, _, _, e⟩ <;> rw [e] at h ⊢
  · rfl
  · rfl
  · rfl
  · cases h

theorem countingSample_lost {c : Channel} {phase : Phase} {good : Bool} (h : (c.countingSample phase good).lost = true) :
    (c.countingSample phase good).channel.state = .lost := by
  unfold Channel.countingSample at h ⊢
  cases hp : c.lastPhase with
  | none => simp [hp] at h
  | some last =>
    simp only [hp] at h ⊢
    cases good with
    | true =>
      simp only [if_true] at h ⊢
      split_ifs at h ⊢
      · exact countStep_lost h
      · exact countStep_lost h
    | false =>
      simp only [Bool.false_eq_true, if_false, Channel.holdStep] at h ⊢
      split_ifs at h ⊢
      · rfl

theorem sample_lost {c : Channel} {phase : Phase} {sigok refok : Bool} (h : (c.sample phase sigok refok).lost = true) :
    (c.sample phase sigok refok).channel.state = .lost := by
  cases hs : c.state <;> simp only [Channel.sample, hs] at h ⊢
  · cases h
  · exact countingSample_lost h
  · exact countingSample_lost h
  · cases h

/-- What keeps an axis that was just lost LOST or unseeded: it is not preset, and a fitting forgets its phase (R19, R20, R23). -/
theorem lostNowOk_of_channels {s t : State} (h : s.LostNowOk) (hl : t.lostNow = s.lostNow)
    (hc : ∀ a, s.lostNow.get a = true → StillLost (s.channels.get a) → StillLost (t.channels.get a)) :
    t.LostNowOk := fun a ha => by
  rw [hl] at ha
  exact hc a ha (h a ha)

theorem lostNowOk_mediumStep {s t : State} (h : s.LostNowOk) (m : MediumStep s t) : t.LostNowOk :=
  lostNowOk_of_channels h m.lostNow fun a _ hs => by
    rcases m.channels with ⟨hc, _⟩ | hc
    · rw [hc]; exact hs
    · rw [hc a]; exact hs

theorem lostNowOk_sampleUpdated (s : State) (phases : Axes Phase) (sigok : Axes Bool) (refok : Bool) :
    (s.sampleUpdated phases sigok refok).LostNowOk := fun a ha => by
  rw [State.sampleUpdated_lostNow] at ha
  left
  rw [State.sampleUpdated_channels, State.axesAfter_get]
  exact sample_lost ha

theorem lostNowOk_setChannel {s : State} (h : s.LostNowOk) {a : Axis} {c : Channel}
    (hc : s.lostNow.get a = true → StillLost (s.channels.get a) → StillLost c) :
    { s with channels := s.channels.set a c }.LostNowOk :=
  lostNowOk_of_channels h rfl fun b hb hs => by
    show StillLost ((s.channels.set a c).get b)
    rw [Axes.get_set]
    split
    · next hba => subst hba; exact hc hb hs
    · exact hs

theorem stillLost_configure {c : Channel} (h : StillLost c) (w : Int) (fitted : Bool) (wavelength fold : Nat)
    (invert : Bool) (drop : Nat) : StillLost (c.configure w fitted wavelength fold invert drop) := by
  unfold Channel.configure
  dsimp only
  split <;> exact h

theorem stillLost_setFitted {c : Channel} (h : StillLost c) (w : Int) (fitted : Bool) :
    StillLost (c.setFitted w fitted) := by
  unfold Channel.setFitted
  split_ifs
  exacts [.inr rfl, h, h, .inr rfl]

theorem lostNowOk_requestStep {s u : State} (h : s.LostNowOk) (r : RequestStep s u) : u.LostNowOk := by
  cases r with
  | configureAxis a fitted invert wavelength fold drop valid unused =>
    exact lostNowOk_setChannel h fun _ hs => stillLost_setFitted (stillLost_configure hs _ _ _ _ _ _) _ _
  | presetAxis a value range ok =>
    refine lostNowOk_setChannel h fun hl _ => ?_
    simp [State.presettable, hl] at ok
  | supplyMedium generation mask w => exact lostNowOk_mediumStep h (.supply s generation mask w)
  | setPolicy hp panic stale guard hold => exact lostNowOk_mediumStep h (.setPolicy s hp panic stale guard hold)
  | startScan p first last stride _ _ _ => exact lostNowOk_of_channels h (by simp) fun a _ hs => by simpa using hs
  | acknowledgeHalt p _ => exact lostNowOk_of_channels h (by simp) fun a _ hs => by simpa using hs
  | _ => exact h

theorem lostNowOk_of_clear {s : State} (h : s.lostNow = .all false) : s.LostNowOk := fun a ha => by
  simp [h] at ha

theorem lostNowOk_commandStep {s t : State} (h : s.LostNowOk) (c : CommandStep s t) : t.LostNowOk := by
  cases c with
  | event e =>
    cases e with
    | phaseSample phases sigok refok =>
      exact lostNowOk_mediumStep (lostNowOk_sampleUpdated s phases sigok refok) (.examine _)
    | expiry => exact lostNowOk_mediumStep h (.expire s)
    | _ => exact h
  | @answered u len r _ q => exact lostNowOk_requestStep (u := u) h q
  | port p =>
    exact lostNowOk_of_channels h p.sameBlocks.lostNow fun a _ hs => by rw [p.sameBlocks.channels]; exact hs
  | access j _ =>
    exact lostNowOk_of_channels h (s.runJob_step j).lostNow fun a _ hs => by
      rw [AccessResult.grant_channels, (s.runJob_step j).channels]; exact hs
  | evaluate r rest _ _ => exact lostNowOk_of_channels h (by simp) fun a _ hs => by simpa using hs
  | powerOn => exact lostNowOk_of_clear rfl
  | _ => exact h

/-! ### Every step -/

/-- An idle step leaves the channels and the axes of the last sample, and ends the moment of a sample or keeps it. -/
theorem idle_axes (s : State) :
    s.idle.channels = s.channels ∧ s.idle.sampled = s.sampled ∧ s.idle.cu.activeW = s.cu.activeW ∧
      (s.idle.lostNow = s.lostNow ∨ s.idle.lostNow = .all false) := by
  rcases s.idle_cases with ⟨i, _, e⟩ | ⟨_, e⟩ <;> rw [e]
  · exact ⟨rfl, rfl, rfl, .inl rfl⟩
  · exact ⟨rfl, rfl, rfl, .inr rfl⟩

/-- Settles O6: the cases of a step, and for each what it does to a channel. -/
theorem everyStepKeepsTheChannels : Obligations.EveryStepKeepsTheChannels := by
  refine ⟨fun s t h hstep => ?_, fun s t hc hw h hstep => ?_, fun s t h hstep => ?_⟩
  · rcases step_cases hstep with rfl | ⟨_, rest, _, c⟩
    · exact channelsOk_of_eq h (idle_axes s).1 (idle_axes s).2.2.1
    · exact channelsOk_commandStep (s := { s with pending := rest }) h c
  · rcases step_cases hstep with rfl | ⟨_, rest, _, c⟩
    · exact sampledOk_of_eq h (idle_axes s).2.1
    · exact sampledOk_commandStep (s := { s with pending := rest }) hc hw h c
  · rcases step_cases hstep with rfl | ⟨_, rest, _, c⟩
    · obtain ⟨hch, _, _, hl | hl⟩ := idle_axes s
      · exact lostNowOk_of_channels h hl fun a _ hs => by rw [hch]; exact hs
      · exact lostNowOk_of_clear hl
    · exact lostNowOk_commandStep (s := { s with pending := rest }) h c

end Sys2Proof.Proofs.Channels

/-! The compensation unit at every step, of 02_length_scaling_and_the_medium.md and 07_commit_scheduling.md (R30 to R36, R154 to
R162). -/

namespace Sys2Proof.Proofs.Medium

open Sys2Proof.Machine

/-! ### The invariant in its parts

Within a step the debt may stand at the panic mark, and the age at the stale limit with the flag clear; the commit and the stale
test that follow mend them. -/

/-- The ranges of the unit, without its relation of debt to panic mark and of age to stale flag. -/
structure CuRanges (c : Cu) : Prop where
  active_range : WInRange c.activeW ∧ c.activeGeneration ≤ 65535
  pending_range : ∀ ps, c.pendingSet = some ps → WInRange ps.w ∧ ps.generation ≤ 65535
  debt_zero : c.pendingSet = none → c.debt = 0
  marks : 1 ≤ c.hpMark ∧ c.hpMark ≤ 14 ∧ c.hpMark < c.panicMark ∧ c.panicMark ≤ 15
  age_range : c.age ≤ 255
  staleLimit_range : 1 ≤ c.staleLimit ∧ c.staleLimit ≤ 255
  timer_range : c.timerCount ≤ 65535 ∧ c.timerPeriod ≤ 65535
  guard_range : c.guard ≤ Config.distanceMax
  divider_range : c.msPeriods < Config.millisecondPeriods

/-- No stale age without the flag (R159). -/
def StaleMarked (c : Cu) : Prop := c.staleLimit ≤ c.age → c.stale = true

theorem cuOk_iff (c : Cu) : CuOk c ↔ CuRanges c ∧ c.debt < c.panicMark ∧ StaleMarked c :=
  ⟨fun h => ⟨{ h with }, h.debt_below, h.stale_set⟩, fun ⟨h, hd, hs⟩ => { h with debt_below := hd, stale_set := hs }⟩

theorem CuRanges.debt_below_of_none {c : Cu} (h : CuRanges c) (hn : c.pendingSet = none) : c.debt < c.panicMark := by
  have := h.debt_zero hn
  have := h.marks
  omega

/-! ### Commits and examinations -/

theorem commit_cu_of_some {s : State} {ps : MediumSet} (h : s.cu.pendingSet = some ps) (k : CommitKind) :
    (s.commit k).cu =
      { s.cu with activeW := ps.w, activeGeneration := ps.generation, pendingSet := none, debt := 0, lastCommit := k } := by
  unfold State.commit
  rw [h]
  simp [State.applyCommit]

/-- A commit leaves the ranges, the debt below the panic mark, and age and flag as they were (R36, R39). -/
theorem commit_cu {s : State} (h : CuRanges s.cu) (k : CommitKind) :
    CuRanges (s.commit k).cu ∧ (s.commit k).cu.debt < (s.commit k).cu.panicMark ∧
      (StaleMarked s.cu → StaleMarked (s.commit k).cu) := by
  cases hp : s.cu.pendingSet with
  | none =>
    rw [State.commit_of_none hp]
    exact ⟨h, h.debt_below_of_none hp, id⟩
  | some ps =>
    rw [commit_cu_of_some hp]
    have hm := h.marks
    exact ⟨{ h with active_range := h.pending_range ps hp, pending_range := by simp, debt_zero := fun _ => rfl },
      show 0 < s.cu.panicMark by omega, id⟩

theorem cuOk_commit {s : State} (h : CuRanges s.cu) (hs : StaleMarked s.cu) (k : CommitKind) : CuOk (s.commit k).cu :=
  let ⟨h1, h2, h3⟩ := commit_cu h k
  (cuOk_iff _).2 ⟨h1, h2, h3 hs⟩

theorem cuOk_examine {s : State} (h : CuOk s.cu) : CuOk s.examine.cu := by
  rcases s.examine_eq with e | ⟨k, _, e⟩ <;> rw [e]
  · exact h
  · exact cuOk_commit ((cuOk_iff _).1 h).1 h.stale_set k

/-! ### The stale test and expiries (R158 to R160) -/

theorem staleTest_cu (s : State) :
    StaleMarked s.staleTest.cu ∧ ∃ b, s.staleTest.cu = { s.cu with stale := b } := by
  rcases s.staleTest_cases with ⟨e, hn⟩ | ⟨e, _⟩ <;> rw [e]
  · refine ⟨fun hle => ?_, s.cu.stale, rfl⟩
    by_contra hs
    exact hn ⟨hle, by simpa using hs⟩
  · exact ⟨fun _ => rfl, true, rfl⟩

theorem CuRanges.setStale {c : Cu} (h : CuRanges c) (b : Bool) : CuRanges { c with stale := b } := { h with }

theorem CuRanges.raiseDebt {c : Cu} (h : CuRanges c) : CuRanges c.raiseDebt := by
  unfold Cu.raiseDebt
  split
  · next hp => exact { h with debt_zero := fun hn => by simp [show c.pendingSet = none from hn] at hp }
  · exact h

theorem raiseDebt_debt_le {c : Cu} (h : c.debt < c.panicMark) : c.raiseDebt.debt ≤ c.raiseDebt.panicMark := by
  unfold Cu.raiseDebt
  split
  · exact h
  · exact h.le

theorem raiseDebt_marked {c : Cu} (h : StaleMarked c) : StaleMarked c.raiseDebt := by
  unfold Cu.raiseDebt
  split <;> exact h

/-- At the panic mark the commit is taken at once, so the debt never stands at it behind an expiry (R158, R167). -/
theorem cuOk_expiryCommit {s : State} (h : CuOk s.cu) : CuOk s.expiryCommit.cu := by
  obtain ⟨hr, hd, hs⟩ := (cuOk_iff _).1 h
  have hle := raiseDebt_debt_le hd
  rcases s.expiryCommit_cases with ⟨_, e⟩ | ⟨hne, e⟩ <;> rw [e]
  · exact cuOk_commit (s := { s with cu := s.cu.raiseDebt }) hr.raiseDebt (raiseDebt_marked hs) _
  · have hp : s.cu.raiseDebt.panicMark = s.cu.panicMark := by unfold Cu.raiseDebt; split <;> rfl
    exact cuOk_examine (s := { s with cu := s.cu.raiseDebt })
      ((cuOk_iff _).2 ⟨hr.raiseDebt, by show s.cu.raiseDebt.debt < s.cu.raiseDebt.panicMark; omega, raiseDebt_marked hs⟩)

theorem cuOk_expire {s : State} (h : CuOk s.cu) : CuOk s.expire.cu := by
  obtain ⟨hr, hd, _⟩ := (cuOk_iff _).1 h
  have hr' : CuRanges { s.cu with timerCount := s.cu.timerPeriod, age := bump8 s.cu.age } :=
    { hr with age_range := bump8_le _, timer_range := ⟨hr.timer_range.2, hr.timer_range.2⟩ }
  obtain ⟨hm, b, hb⟩ :=
    staleTest_cu { s with cu := { s.cu with timerCount := s.cu.timerPeriod, age := bump8 s.cu.age } }
  refine cuOk_expiryCommit ((cuOk_iff _).2 ⟨?_, ?_, hm⟩) <;> rw [hb]
  · exact hr'.setStale b
  · exact hd

/-! ### Requests (R31 to R34, R156, R161, R162, R169) -/

theorem clampW_range (v : Int) : -Config.wMax ≤ clampW v ∧ clampW v ≤ Config.wMax := clampInt_range (by decide) v

theorem suppliedSet_range {c : Cu} (h : CuOk c) (generation : BitVec 16) (mask : Byte) (w : Axes (BitVec 32)) :
    WInRange (c.suppliedSet generation mask w).w := by
  intro a
  simp only [Cu.suppliedSet, Axes.get_ofFn]
  split
  · exact clampW_range _
  · cases hp : c.pendingSet with
    | none => exact h.active_range.1 a
    | some ps => exact (h.pending_range ps hp).1 a

theorem cuOk_supply {c : Cu} (h : CuOk c) (generation : BitVec 16) (mask : Byte) (w : Axes (BitVec 32)) :
    CuOk (c.supply generation mask w) :=
  { h with
    pending_range := fun ps hps => by
      cases hps
      exact ⟨suppliedSet_range h generation mask w, bitVec16_le generation⟩
    debt_zero := fun hn => by cases hn
    age_range := Nat.zero_le _
    stale_set := fun hle => by
      have := h.staleLimit_range.1
      have : c.staleLimit ≤ 0 := hle
      omega }

theorem CuRanges.setPolicy {c : Cu} (h : CuRanges c) (hp panic stale : Byte) (guard : BitVec 32) (hold : Byte) :
    CuRanges (c.setPolicy hp panic stale guard hold) := by
  have h1 := clampNat_range (show 1 ≤ 14 by decide) hp.toNat
  have h2 := clampNat_range (show 2 ≤ 15 by decide) panic.toNat
  refine { h with
    marks := ⟨h1.1, h1.2, ?_⟩
    staleLimit_range := clampNat_range (show 1 ≤ 255 by decide) stale.toNat
    guard_range := (clampNat_range (Nat.zero_le Config.distanceMax) guard.toNat).2 }
  show clampHp hp < clampPanic hp panic ∧ clampPanic hp panic ≤ 15
  unfold clampPanic clampHp
  split <;> omega

theorem cuOk_setPolicy {s : State} (h : CuOk s.cu) (hp panic stale : Byte) (guard : BitVec 32) (hold : Byte) :
    CuOk ({ s with cu := s.cu.setPolicy hp panic stale guard hold }.policyPanic.staleTest).cu := by
  have hr := CuRanges.setPolicy ((cuOk_iff _).1 h).1 hp panic stale guard hold
  obtain ⟨hm, b, hb⟩ := staleTest_cu { s with cu := s.cu.setPolicy hp panic stale guard hold }.policyPanic
  have hpanic : CuRanges ({ s with cu := s.cu.setPolicy hp panic stale guard hold }.policyPanic).cu ∧
      ({ s with cu := s.cu.setPolicy hp panic stale guard hold }.policyPanic).cu.debt <
        ({ s with cu := s.cu.setPolicy hp panic stale guard hold }.policyPanic).cu.panicMark := by
    rcases State.policyPanic_cases { s with cu := s.cu.setPolicy hp panic stale guard hold } with ⟨e, hn⟩ | ⟨e, _⟩
    · rw [e]
      refine ⟨hr, ?_⟩
      cases hps : s.cu.pendingSet with
      | none => exact hr.debt_below_of_none hps
      | some ps => exact not_le.1 fun hle => hn ⟨by simp [Cu.setPolicy, hps], hle⟩
    · rw [e]
      obtain ⟨h1, h2, _⟩ := commit_cu (s := { s with cu := s.cu.setPolicy hp panic stale guard hold }) hr .panic
      exact ⟨h1, h2⟩
  refine (cuOk_iff _).2 ⟨?_, ?_, hm⟩ <;> rw [hb]
  · exact hpanic.1.setStale b
  · exact hpanic.2

theorem cuOk_force {c : Cu} (h : CuOk c) : CuOk c.force := by
  unfold Cu.force
  split
  · next hp =>
    have hm := h.marks
    exact
      { h with
        debt_zero := fun hn => by simp [show c.pendingSet = none from hn] at hp
        debt_below := max_lt h.debt_below hm.2.2.1 }
  · exact h

theorem cuOk_setTimer {c : Cu} (h : CuOk c) (select : Byte) (period count : BitVec 16) (enable : Byte) :
    CuOk (c.setTimer select period count enable) := by
  refine { h with timer_range := ⟨?_, ?_⟩ } <;> unfold Cu.setTimer <;> dsimp only <;> split
  exacts [bitVec16_le _, h.timer_range.1, bitVec16_le _, h.timer_range.2]

theorem cuOk_tick {s : State} (h : CuOk s.cu) : CuOk s.reduceTimer.cu :=
  { h with timer_range := ⟨(Nat.sub_le _ _).trans h.timer_range.1, h.timer_range.2⟩ }

theorem cuOk_clkPeriod {s : State} (h : CuOk s.cu) : CuOk s.clkPeriod.cu := by
  refine { h with divider_range := ?_ }
  show (if s.cu.msPeriods + 1 < Config.millisecondPeriods then s.cu.msPeriods + 1 else 0) < Config.millisecondPeriods
  split
  · next hlt => exact hlt
  · decide

theorem cuOk_reset : CuOk State.reset.cu where
  active_range := ⟨fun a => by simp [State.reset, Cu.reset], by decide⟩
  pending_range := by simp [State.reset, Cu.reset]
  debt_zero := by decide
  debt_below := by decide
  marks := by decide
  age_range := by decide
  staleLimit_range := by decide
  stale_set := by decide
  timer_range := by decide
  guard_range := by decide
  divider_range := by decide

/-! ### Every step -/

theorem cuOk_of_eq {s t : State} (h : CuOk s.cu) (he : t.cu = s.cu) : CuOk t.cu := by rw [he]; exact h

theorem cuOk_requestStep {s u : State} (h : CuOk s.cu) (r : RequestStep s u) : CuOk u.cu := by
  cases r with
  | supplyMedium generation mask w =>
    exact cuOk_examine (s := { s with cu := s.cu.supply generation mask w }) (cuOk_supply h generation mask w)
  | setPolicy hp panic stale guard hold => exact cuOk_setPolicy h hp panic stale guard hold
  | forceCommit => exact cuOk_force h
  | setTimer select period count enable => exact cuOk_setTimer h select period count enable
  | startScan p first last stride _ _ _ => exact cuOk_of_eq h (by simp)
  | acknowledgeHalt p _ => exact cuOk_of_eq h (by simp)
  | _ => exact h

theorem cuOk_commandStep {s t : State} (h : CuOk s.cu) (c : CommandStep s t) : CuOk t.cu := by
  cases c with
  | event e =>
    cases e with
    | phaseSample phases sigok refok => exact cuOk_examine (cuOk_of_eq h (by simp))
    | tick => exact cuOk_tick h
    | expiry => exact cuOk_expire h
    | _ => exact h
  | @answered u len r _ q => exact cuOk_requestStep (u := u) h q
  | port p => exact cuOk_of_eq h p.sameBlocks.cu
  | access j _ => exact cuOk_of_eq h (s.runJob_step j).cu
  | evaluate r rest _ _ => exact cuOk_of_eq h (by simp)
  | powerOn => exact cuOk_reset
  | _ => exact h

/-- Settles O7: the cases of a step; a commit or a stale test mends what a step left at a mark. -/
theorem everyStepKeepsTheCompensationUnit : Obligations.EveryStepKeepsTheCompensationUnit := by
  intro s t h hstep
  rcases step_cases hstep with rfl | ⟨_, rest, _, c⟩
  · rcases s.idle_cases with ⟨i, _, e⟩ | ⟨_, e⟩ <;> rw [e]
    · exact h
    · exact cuOk_clkPeriod h
  · exact cuOk_commandStep (s := { s with pending := rest }) h c

end Sys2Proof.Proofs.Medium

/-! The measuring points at every step, of 03_measuring_points.md and 05_scanning_cursor_and_windows.md (R43 to R53, R67, R100,
R101, R124). -/

namespace Sys2Proof.Machine

/-! ### The window logic, once more: closes without a seek, strobes and updates as updates of a few fields -/

theorem Tracker.inProgress_atClose (t : Tracker) : t.atClose.inProgress = false := by cases t <;> rfl

/-- What a close without a seek leaves: a record offered at most, and nothing in progress without an open window. -/
theorem MeasuringPoint.closeStopped_frame (m : MeasuringPoint) (stale : Bool) (cause : CloseCause) :
    ∃ T Q C, m.closeStopped stale cause = { m with cursor := .inactive, tracker := T, queue := Q, counters := C } ∧
      ((m.tracker.inProgress = true → m.passOpen = true) → T.inProgress = false) ∧
      (m.queue.length ≤ 2 → Q.length ≤ 2) ∧ (CountersOk m.counters → CountersOk C) ∧ (m.queue ≠ [] → Q ≠ []) := by
  rcases m.closeStopped_cases stale cause with ⟨ho, e⟩ | ⟨d, dir, r, _, ⟨hq, e⟩ | ⟨_, e⟩⟩
  · refine ⟨m.tracker, m.queue, m.counters, e, fun h => ?_, id, id, id⟩
    simpa [ho] using h
  · exact ⟨_, _, _, e, fun _ => Tracker.inProgress_atClose _, fun _ => by simpa using hq, id, fun _ => by simp⟩
  · exact ⟨_, _, _, e, fun _ => Tracker.inProgress_atClose _, id,
      fun ⟨h1, h2, h3, _, h5⟩ => ⟨h1, h2, h3, bump16_le _, h5⟩, id⟩

/-- A strobe added changes the open pass alone, where there is one (R60). -/
theorem MeasuringPoint.addStrobe_cases (m : MeasuringPoint) (x : Int) :
    (m.passOpen = false ∧ m.addStrobe x = m) ∨
      ∃ d dir r, m.cursor = .opened d dir r ∧ m.addStrobe x = { m with cursor := .opened d dir (r.tallyStrobe x) } := by
  unfold MeasuringPoint.addStrobe MeasuringPoint.passOpen
  cases hc : m.cursor with
  | inactive => exact .inl ⟨rfl, rfl⟩
  | atEnd => exact .inl ⟨rfl, rfl⟩
  | armed d dir t => exact .inl ⟨rfl, rfl⟩
  | opened d dir r => exact .inr ⟨d, dir, r, rfl, rfl⟩

end Sys2Proof.Machine

namespace Sys2Proof.Proofs.Points

open Sys2Proof.Machine

/-! ### The invariant in its parts

A position update moves the direction, and a request the state, before the cursor seeks; between the two the part of the invariant
that relates the cursor to them is open. -/

/-- The part of a point's invariant that does not speak of the cursor. -/
structure PointCore (m : MeasuringPoint) : Prop where
  config : PointConfigOk m.config
  enabled_iff : m.config.enabled = true ↔ m.state ≠ .disabled
  disabled_tracker : m.state = .disabled → m.tracker = .noPulse
  queue_length : m.queue.length ≤ Config.queueLength
  counters : CountersOk m.counters
  x_range : InPositionRange m.x
  prevX_range : InPositionRange m.prevX
  scan_range : m.scan.first ≤ m.scan.last ∧ m.scan.last ≤ 65535 ∧ 1 ≤ m.scan.stride ∧ m.scan.stride ≤ 255
  suspended_cause : m.state = .suspended → m.cause ≠ .none

variable {m : MeasuringPoint}

theorem core (h : PointOk m) : PointCore m := { h with }

theorem pointOk_of (h : PointCore m) (hc : m.cursor = .inactive ↔ m.state ≠ .scanning)
    (ha : ∀ d dir t, m.cursor = .armed d dir t → m.direction = some dir)
    (hq : m.tracker.inProgress = true → m.passOpen = true) : PointOk m :=
  { h with cursor_iff := hc, armed_direction := ha, qualifying_open := hq }

theorem state_eq_scanning_of_cursor (h : PointOk m) (hc : m.cursor ≠ .inactive) : m.state = .scanning := by
  by_contra hs
  exact hc (h.cursor_iff.2 hs)

theorem inProgress_of_not_open (h : PointOk m) (ho : m.passOpen = false) : m.tracker.inProgress = false := by
  cases ht : m.tracker.inProgress with
  | false => rfl
  | true => exact absurd (h.qualifying_open ht) (by simp [ho])

/-! ### Cursor moves -/

/-- A cursor that is not ACTIVE goes with a point that is not SCANNING. -/
theorem pointOk_inactive (h : PointCore m) (hc : m.cursor = .inactive) (hs : m.state ≠ .scanning)
    (ht : m.tracker.inProgress = false) : PointOk m :=
  pointOk_of h (iff_of_true hc hs) (by simp [hc]) (by simp [ht])

/-- A window opened, or an open pass rewritten. -/
theorem pointOk_opened (h : PointCore m) (hs : m.state = .scanning) (d : Designation) (dir : Travel) (r : OpenPass) :
    PointOk { m with cursor := .opened d dir r } :=
  pointOk_of { h with } (by simp [hs]) (by simp) (fun _ => rfl)

/-- A seek of a SCANNING point with no strobe in progress leaves its cursor at END or ARMED in its direction (R106, R107, R111). -/
theorem pointOk_seek (h : PointCore m) (hs : m.state = .scanning) (ht : m.tracker.inProgress = false)
    (idx : List IndexItem) : PointOk (m.seek idx).point := by
  rcases m.seek_frame idx with ⟨e, it, dir, hd, hsame⟩ | e | ⟨it, dir, tr, g, n, hd, e⟩ <;> rw [e]
  · have hdir := (MeasuringPoint.seekTarget_some hd).2.2.2
    unfold Cursor.sameArming at hsame
    split at hsame
    · next d dir' t hc =>
      simp only [decide_eq_true_eq] at hsame
      refine pointOk_of h (by simp [hc, hs]) (fun d2 dir2 t2 hc2 => ?_) (by simp [ht])
      rw [hc] at hc2
      cases hc2
      rw [hdir, hsame.2.2]
    all_goals cases hsame
  · exact pointOk_of { h with } (by simp [hs]) (by simp) (by simp [ht])
  · refine pointOk_of { h with } (by simp [hs]) (fun d2 dir2 t2 hc2 => ?_) (by simp [ht])
    cases hc2
    exact (MeasuringPoint.seekTarget_some hd).2.2.2

theorem pointOk_closeScanning (h : PointCore m) (hs : m.state = .scanning) (idx : List IndexItem) (stale : Bool)
    (cause : CloseCause) (r : OpenPass) : PointOk (m.closeScanning idx stale cause r).point := by
  have hd : m.state ≠ .disabled := by simp [hs]
  rcases m.closeScanning_cases idx stale cause r with ⟨hq, e⟩ | ⟨_, e⟩ <;> rw [e]
  · refine pointOk_seek
      (m := { m with
        tracker := m.tracker.atClose
        queue := m.queue ++ [r.close cause m.tracker.inProgress stale] })
      { h with disabled_tracker := fun hs' => absurd hs' hd, queue_length := ?_ } hs (Tracker.inProgress_atClose _) idx
    simpa using hq
  · obtain ⟨h1, h2, h3, _, h5⟩ := h.counters
    refine pointOk_inactive ?_ rfl (show RunState.halted ≠ .scanning by decide) (Tracker.inProgress_atClose _)
    exact
      { h with
        enabled_iff := iff_of_true (h.enabled_iff.2 hd) (by simp)
        disabled_tracker := fun hs' => by cases hs'
        counters := ⟨h1, h2, h3, bump16_le _, h5⟩
        suspended_cause := fun hs' => by cases hs' }

/-- A close without a seek, the point then in a state that is neither SCANNING nor DISABLED. -/
theorem pointOk_closeStopped (h : PointCore m) (hd : m.state ≠ .disabled)
    (hq : m.tracker.inProgress = true → m.passOpen = true) (stale : Bool) (cause : CloseCause) {st : RunState}
    {sc : SuspendCause} (hst : st ≠ .scanning ∧ st ≠ .disabled) (hsc : st = .suspended → sc ≠ .none) :
    PointOk { m.closeStopped stale cause with state := st, cause := sc } := by
  obtain ⟨T, Q, C, e, hT, hQ, hC, _⟩ := m.closeStopped_frame stale cause
  rw [e]
  refine pointOk_inactive ?_ rfl hst.1 (hT hq)
  exact
    { h with
      enabled_iff := iff_of_true (h.enabled_iff.2 hd) hst.2
      disabled_tracker := fun hs => absurd hs hst.2
      queue_length := hQ h.queue_length
      counters := hC h.counters
      suspended_cause := hsc }

theorem pointOk_suspend (h : PointCore m) (hd : m.state ≠ .disabled)
    (hq : m.tracker.inProgress = true → m.passOpen = true) (stale : Bool) {cause : SuspendCause} (hc : cause ≠ .none) :
    PointOk (m.suspend stale cause).point :=
  pointOk_closeStopped h hd hq stale .suspended (by decide) fun _ => hc

theorem pointOk_takeLoss (h : PointOk m) (stale : Bool) (lost : Axis → Bool) :
    PointOk (m.takeLoss stale lost).point := by
  rcases m.takeLoss_cases stale lost with ⟨hr, _, e⟩ | ⟨_, e⟩ <;> rw [e]
  · have hd : m.state ≠ .disabled := by
      rcases (m.running_iff).1 hr with hs | hs <;> simp [hs]
    exact pointOk_suspend (core h) hd h.qualifying_open stale (by decide)
  · exact h

theorem pointOk_handEdit (h : PointOk m) (idx : List IndexItem) (key : Nat) (before after : Option IndexItem) :
    PointOk (m.handEdit idx key before after).point := by
  rcases m.handEdit_cases idx key before after with ⟨hs, e⟩ | ⟨_, e⟩ <;> rw [e]
  · simp only [MeasuringPoint.editSeeks, Bool.and_eq_true, decide_eq_true_eq] at hs
    refine pointOk_seek (core h) hs.1 (inProgress_of_not_open h ?_) idx
    cases hc : m.cursor <;> simp [hc, MeasuringPoint.passOpen] at hs ⊢
  · exact h

theorem pointOk_triggerTest (h : PointOk m) : PointOk m.triggerTest := by
  rcases m.triggerTest_cases with e | ⟨d, dir, t, hc, _, _, e⟩ <;> rw [e]
  · exact h
  · have hs := state_eq_scanning_of_cursor h (by simp [hc])
    have ht := inProgress_of_not_open h (by simp [MeasuringPoint.passOpen, hc])
    refine pointOk_of { core h with } (by simp [hs]) (fun d2 dir2 t2 hc2 => ?_) (by simp [ht])
    cases hc2
    exact h.armed_direction d dir _ hc

theorem pointOk_openingTest (h : PointOk m) (idx : List IndexItem) (stale : Bool) :
    PointOk (m.openingTest idx stale).point := by
  unfold MeasuringPoint.openingTest
  split
  · next d dir t hc =>
    have hs := state_eq_scanning_of_cursor h (by simp [hc])
    split_ifs
    · exact pointOk_opened (core h) hs _ _ _
    · exact pointOk_closeScanning (core (pointOk_opened (core h) hs _ _ _)) hs idx stale _ _
    · exact h
  all_goals exact h

theorem pointOk_closingTest (h : PointOk m) (idx : List IndexItem) (stale : Bool) :
    PointOk (m.closingTest idx stale).point := by
  unfold MeasuringPoint.closingTest
  split
  · next d dir r hc =>
    have hs := state_eq_scanning_of_cursor h (by simp [hc])
    split_ifs
    · exact pointOk_closeScanning (core h) hs idx stale _ _
    · exact pointOk_closeScanning (core h) hs idx stale _ _
    · exact h
  all_goals exact h

/-! ### The position update (R48 to R51, R115) -/

theorem core_formUpdate (h : PointCore m) (chs : Axes Channel) : PointCore (m.formUpdate chs) :=
  { h with x_range := saturate_range _, prevX_range := h.x_range }

/-- The new direction breaks the invariant for an ARMED cursor alone, and only when it differs. -/
theorem pointOk_formUpdate (h : PointOk m) (chs : Axes Channel)
    (hd : (∃ d dir t, m.cursor = .armed d dir t) → (m.formUpdate chs).direction = m.direction) :
    PointOk (m.formUpdate chs) :=
  pointOk_of (core_formUpdate (core h) chs) h.cursor_iff
    (fun d dir t hc => (hd ⟨d, dir, t, hc⟩).trans (h.armed_direction d dir t hc)) h.qualifying_open

/-- The seek of a change of direction mends the relation of the cursor to the direction (R108). -/
theorem pointOk_turnSeek (h : PointOk m) (hs : m.state = .scanning) (ho : m.passOpen = false) (chs : Axes Channel)
    (idx : List IndexItem) :
    PointOk ((m.formUpdate chs).turnSeek idx (decide ((m.formUpdate chs).direction ≠ m.direction))).point := by
  have ht : (m.formUpdate chs).tracker.inProgress = false := inProgress_of_not_open (m := m) h ho
  have hseek := pointOk_seek (core_formUpdate (core h) chs) hs ht idx
  unfold MeasuringPoint.turnSeek
  split
  · split_ifs with hne
    · exact hseek
    · exact pointOk_formUpdate h chs fun _ => by simpa using hne
  · next hc =>
    split_ifs
    · exact hseek
    · exact pointOk_formUpdate h chs fun ⟨d, dir, t, ha⟩ => by
        rw [show m.cursor = .atEnd from hc] at ha; cases ha
  · next hc =>
    exact pointOk_formUpdate h chs fun ⟨d, dir, t, ha⟩ => by rw [show m.cursor = .inactive from hc] at ha; cases ha
  · next d' dir' r' hc =>
    exact pointOk_formUpdate h chs fun ⟨d, dir, t, ha⟩ => by
      rw [show m.cursor = .opened d' dir' r' from hc] at ha; cases ha

theorem pointOk_positionUpdate (h : PointOk m) (chs : Axes Channel) (idx : List IndexItem) (stale : Bool) :
    PointOk (m.positionUpdate chs idx stale).point := by
  unfold MeasuringPoint.positionUpdate
  split
  · next hen =>
    have hd : m.state ≠ .disabled := (m.enabled_iff).1 hen
    have hsus := fun {cause : SuspendCause} (hc : cause ≠ .none) =>
      pointOk_suspend (core_formUpdate (core h) chs) hd h.qualifying_open stale hc
    have hrest : m.state ≠ .scanning → PointOk (m.formUpdate chs) := fun hs =>
      pointOk_formUpdate h chs fun ⟨d, dir, t, ha⟩ => by rw [h.cursor_iff.2 hs] at ha; cases ha
    unfold MeasuringPoint.windowUpdate
    dsimp only
    split
    · next hs =>
      split_ifs with hr ho
      · exact hsus (by decide)
      · obtain ⟨d, dir, r, hc⟩ := (MeasuringPoint.passOpen_iff _).1 ho
        exact pointOk_closingTest (pointOk_formUpdate h chs fun ⟨d2, dir2, t, ha⟩ => by
          rw [show m.cursor = .opened d dir r from hc] at ha; cases ha) idx stale
      · exact pointOk_openingTest
          (pointOk_triggerTest (pointOk_turnSeek h hs (eq_false_of_ne_true ho) chs idx)) idx stale
    · next hs =>
      split_ifs
      · exact hsus (by decide)
      · exact hrest (by rw [show m.state = .halted from hs]; decide)
    · next hs => exact hrest (by rw [show m.state = .disabled from hs]; decide)
    · next hs => exact hrest (by rw [show m.state = .idle from hs]; decide)
    · next hs => exact hrest (by rw [show m.state = .suspended from hs]; decide)
  · exact h

/-! ### Strobes and triggers (R52 to R60, R114) -/

theorem pointOk_setTracker (h : PointOk m) {t : Tracker} (ho : t.inProgress = true → m.passOpen = true)
    (hd : m.state = .disabled → t = .noPulse) : PointOk (m.setTracker t) :=
  { h with qualifying_open := ho, disabled_tracker := hd }

theorem pointOk_setLine (h : PointOk m) (level : Bool) : PointOk (m.setLine level) := { h with }

theorem pointOk_countStray (h : PointOk m) : PointOk m.countStray :=
  { h with counters := let ⟨_, h2, h3, h4, h5⟩ := h.counters; ⟨bump16_le _, h2, h3, h4, h5⟩ }
theorem pointOk_countGlitch (h : PointOk m) : PointOk m.countGlitch :=
  { h with counters := let ⟨h1, _, h3, h4, h5⟩ := h.counters; ⟨h1, bump16_le _, h3, h4, h5⟩ }
theorem pointOk_countHeld (h : PointOk m) : PointOk m.countHeld :=
  { h with counters := let ⟨h1, h2, _, h4, h5⟩ := h.counters; ⟨h1, h2, bump16_le _, h4, h5⟩ }
theorem pointOk_countOrphan (h : PointOk m) : PointOk m.countOrphan :=
  { h with counters := let ⟨h1, h2, h3, h4, _⟩ := h.counters; ⟨h1, h2, h3, h4, bump16_le _⟩ }

theorem pointOk_addStrobe (h : PointOk m) (x : Int) : PointOk (m.addStrobe x) := by
  rcases m.addStrobe_cases x with ⟨_, e⟩ | ⟨d, dir, r, hc, e⟩ <;> rw [e]
  · exact h
  · exact pointOk_opened (core h) (state_eq_scanning_of_cursor h (by simp [hc])) _ _ _

theorem pointOk_takeCommit (h : PointOk m) : PointOk m.takeCommit := by
  rcases m.takeCommit_cases with ⟨_, e⟩ | ⟨d, dir, r, hc, e⟩ <;> rw [e]
  · exact h
  · exact pointOk_opened (core h) (state_eq_scanning_of_cursor h (by simp [hc])) _ _ _

theorem addStrobe_state (m : MeasuringPoint) (x : Int) : (m.addStrobe x).state = m.state := by
  rcases m.addStrobe_cases x with ⟨_, e⟩ | ⟨d, dir, r, _, e⟩ <;> rw [e]

theorem pointOk_beginPulse (h : PointOk m) (hd : m.state ≠ .disabled) (chs : Axes Channel) :
    PointOk (m.beginPulse chs) := by
  unfold MeasuringPoint.beginPulse
  split_ifs with ho
  · exact pointOk_setTracker (pointOk_countStray h) (by simp [Tracker.inProgress]) fun hs => absurd hs hd
  · exact pointOk_setTracker (pointOk_countHeld h) (by simp [Tracker.inProgress]) fun hs => absurd hs hd
  · exact pointOk_setTracker (pointOk_addStrobe h _) (by simp [Tracker.inProgress]) fun hs =>
      absurd ((addStrobe_state m _).symm.trans hs) hd
  · exact pointOk_setTracker h (fun _ => by simpa using ho) fun hs => absurd hs hd

theorem pointOk_leadingEdge (h : PointOk m) (chs : Axes Channel) : PointOk (m.leadingEdge chs) := by
  unfold MeasuringPoint.leadingEdge
  dsimp only
  split
  · next hen =>
    split
    · exact pointOk_beginPulse (pointOk_setLine h _) ((MeasuringPoint.enabled_iff _).1 hen) chs
    · exact pointOk_setLine h _
    · exact pointOk_setLine h _
  · exact pointOk_setLine h _

theorem pointOk_endPulse (h : PointOk m) (chs : Axes Channel) (latched : Int) (active : Nat) :
    PointOk (m.endPulse chs latched active) := by
  have hno : ∀ {n : MeasuringPoint}, PointOk n → PointOk (n.setTracker .noPulse) := fun hn =>
    pointOk_setTracker hn (by simp [Tracker.inProgress]) fun _ => rfl
  unfold MeasuringPoint.endPulse MeasuringPoint.endCentrePulse
  split_ifs
  exacts [hno (pointOk_countGlitch h), hno (pointOk_countHeld h), hno (pointOk_addStrobe h _), hno (pointOk_addStrobe h _)]

theorem pointOk_trailingEdge (h : PointOk m) (chs : Axes Channel) (active : Nat) :
    PointOk (m.trailingEdge chs active) := by
  unfold MeasuringPoint.trailingEdge
  dsimp only
  split
  · split
    · exact pointOk_setLine h _
    · exact pointOk_endPulse (pointOk_setLine h _) chs _ active
    · exact pointOk_setTracker (pointOk_setLine h _) (by simp [Tracker.inProgress]) fun _ => rfl
  · exact pointOk_setLine h _

theorem pointOk_completePulse (h : PointOk m) : PointOk m.completePulse := by
  unfold MeasuringPoint.completePulse
  split
  · next latched n ht =>
    split
    · exact h
    · refine pointOk_setTracker (pointOk_addStrobe h _) (by simp [Tracker.inProgress]) fun hs => ?_
      have := h.disabled_tracker ((addStrobe_state m _).symm.trans hs)
      rw [ht] at this
      cases this
  all_goals exact h

theorem pointOk_endTrigger (h : PointOk m) : PointOk m.endTrigger := { h with }

theorem pointOk_dropOldest (h : PointOk m) : PointOk m.dropOldest := by
  have hlen := h.queue_length
  refine { h with queue_length := ?_ }
  simp only [MeasuringPoint.dropOldest, List.length_drop]
  omega

theorem pointOk_clkPeriod (h : PointOk m) : PointOk m.clkPeriod := by
  have hp : PointOk m.sampleStrobe := by
    unfold MeasuringPoint.sampleStrobe
    split
    · next hen =>
      refine { h with qualifying_open := fun ht => h.qualifying_open ?_, disabled_tracker := fun hs => ?_ }
      · dsimp only at ht
        cases hm : m.tracker <;> simp [hm, Tracker.inProgress] at ht ⊢
      · exact absurd hs ((m.enabled_iff).1 hen)
    · exact h
  exact { hp with }

/-! ### Requests (R45, R46, R102 to R104, R127) and resets -/

theorem clampDistance_le (g : BitVec 32) : clampDistance g ≤ Config.distanceMax :=
  (clampNat_range (Nat.zero_le _) g.toNat).2

theorem coeffsInRange_iff (c : Axes Int) :
    coeffsInRange c = true ↔ ∀ a, -2097152 ≤ c.get a ∧ c.get a ≤ 2097152 := by
  have : coeffsInRange c = true ↔ ¬∃ a, c.get a < -2097152 ∨ 2097152 < c.get a := by
    simp only [coeffsInRange, Bool.not_eq_true', ← Bool.not_eq_true, anyAxis_iff, decide_eq_true_eq]
  rw [this]
  push Not
  exact Iff.rfl

theorem pointConfigOk_settings {coeffs : Axes Int} (h : coeffsInRange coeffs = true) (enabled : Byte)
    (mode : StrobeMode) (tau width hyst : BitVec 16) (lead : BitVec 32) :
    PointConfigOk (pointSettings enabled coeffs mode tau width hyst lead) where
  coeffs_range := (coeffsInRange_iff coeffs).1 h
  tau_range := (clampNat_range (Nat.zero_le Config.tauMax) tau.toNat).2
  width_range := (clampNat_range (Nat.zero_le Config.widthMax) width.toNat).2
  hyst_range := clampNat_range (show 1 ≤ 65535 by decide) hyst.toNat
  lead_range := clampDistance_le lead

theorem pointOk_configure (h : PointOk m) {cfg : PointConfig} (hc : PointConfigOk cfg)
    (hs : m.state = .disabled ∨ m.state = .idle) (chs : Axes Channel) : PointOk (m.configure cfg chs) := by
  have hcur : m.cursor = .inactive := h.cursor_iff.2 (by rcases hs with hs | hs <;> simp [hs])
  unfold MeasuringPoint.configure
  dsimp only
  split
  · next he =>
    exact pointOk_inactive
      { core h with
        config := hc
        enabled_iff := iff_of_true he (by simp)
        disabled_tracker := fun _ => rfl
        x_range := saturate_range _
        suspended_cause := fun hs => by cases hs } hcur (by simp) rfl
  · next he =>
    exact pointOk_inactive
      { core h with
        config := hc
        enabled_iff := iff_of_false he (by simp)
        disabled_tracker := fun _ => rfl
        suspended_cause := fun hs => by cases hs } hcur (by simp) rfl

/-- A point that was not SCANNING enters it and seeks (R103, R127). -/
theorem pointOk_enterScanning (h : PointOk m) (hs : m.state ≠ .scanning) (hd : m.state ≠ .disabled) {cause : SuspendCause}
    {sc : Scan} (hsc : sc.first ≤ sc.last ∧ sc.last ≤ 65535 ∧ 1 ≤ sc.stride ∧ sc.stride ≤ 255) (idx : List IndexItem) :
    PointOk ({ m with state := .scanning, cause := cause, scan := sc }.seek idx).point := by
  have ho : m.passOpen = false := by simp [MeasuringPoint.passOpen, h.cursor_iff.2 hs]
  exact pointOk_seek (m := { m with state := .scanning, cause := cause, scan := sc })
    { core h with
      enabled_iff := iff_of_true (h.enabled_iff.2 hd) (by simp)
      disabled_tracker := fun hs => by cases hs
      scan_range := hsc
      suspended_cause := fun hs => by cases hs } rfl (inProgress_of_not_open (m := m) h ho) idx

theorem countersOk_zero : CountersOk .zero := by
  unfold CountersOk
  decide

theorem pointOk_restart (h : PointOk m) : PointOk m.restart := by
  refine pointOk_inactive ?_ rfl ?_ rfl
  · exact
      { core h with
        enabled_iff := by unfold MeasuringPoint.restart; dsimp only; split <;> simp [*]
        disabled_tracker := fun _ => rfl
        queue_length := Nat.zero_le _
        counters := countersOk_zero
        suspended_cause := by unfold MeasuringPoint.restart; dsimp only; split <;> simp }
  · unfold MeasuringPoint.restart; dsimp only; split <;> simp

theorem pointOk_clearCounters (h : PointOk m) : PointOk { m with counters := .zero } :=
  { h with counters := countersOk_zero }

theorem pointOk_reset (p : Point) : PointOk (State.reset.point p) := by
  refine pointOk_inactive ?_ (by cases p <;> rfl) (by cases p <;> decide) (by cases p <;> rfl)
  have hzero : InPositionRange 0 := by
    unfold InPositionRange
    decide
  exact
    { config := by constructor <;> cases p <;> decide
      enabled_iff := by cases p <;> decide
      disabled_tracker := by cases p <;> decide
      queue_length := by cases p <;> decide
      counters := by cases p <;> exact countersOk_zero
      x_range := by cases p <;> exact hzero
      prevX_range := by cases p <;> exact hzero
      scan_range := by cases p <;> decide
      suspended_cause := by cases p <;> decide }

/-! ### Every step -/

theorem pointsOk_setPoint {s : State} (h : s.PointsOk) {p : Point} {n : MeasuringPoint} (hn : PointOk n) :
    (s.setPoint p n).PointsOk := fun q => by
  rw [State.setPoint_point]
  split
  · exact hn
  · exact h q

theorem pointsOk_takePoint {s : State} (h : s.PointsOk) {p : Point} {r : PointResult} (hr : PointOk r.point) :
    (s.takePoint p r).PointsOk := fun q => by
  rw [State.takePoint_point]
  split
  · exact hr
  · exact h q

theorem pointsOk_mediumStep {s t : State} (h : s.PointsOk) (m : MediumStep s t) : t.PointsOk := fun p => by
  rcases m.points p with e | e <;> rw [e]
  · exact h p
  · exact pointOk_takeCommit (h p)

theorem pointsOk_sameBlocks {s t : State} (h : s.PointsOk) (b : SameBlocks s t) : t.PointsOk := fun p => by
  rw [b.point]; exact h p

theorem pointsOk_sampleUpdated {s : State} (h : s.PointsOk) (phases : Axes Phase) (sigok : Axes Bool) (refok : Bool) :
    (s.sampleUpdated phases sigok refok).PointsOk := fun p => by
  rw [State.sampleUpdated_point]
  exact pointOk_positionUpdate (pointOk_takeLoss (h p) _ _) _ _ _

theorem pointsOk_eventStep {s t : State} (h : s.PointsOk) (e : EventStep s t) : t.PointsOk := by
  cases e with
  | none => exact h
  | phaseSample phases sigok refok => exact pointsOk_mediumStep (pointsOk_sampleUpdated h phases sigok refok) (.examine _)
  | leadingEdge p => exact pointsOk_setPoint h (pointOk_leadingEdge (h p) _)
  | trailingEdge p active => exact pointsOk_setPoint h (pointOk_trailingEdge (h p) _ _)
  | completion p => exact pointsOk_setPoint h (pointOk_completePulse (h p))
  | triggerEnd p => exact pointsOk_setPoint h (pointOk_endTrigger (h p))
  | tick => exact pointsOk_mediumStep h (.tick s)
  | expiry => exact pointsOk_mediumStep h (.expire s)

theorem pointsOk_requestStep {s u : State} (h : s.PointsOk) (r : RequestStep s u) : u.PointsOk := by
  cases r with
  | supplyMedium generation mask w => exact pointsOk_mediumStep h (.supply s generation mask w)
  | setPolicy hp panic stale guard hold => exact pointsOk_mediumStep h (.setPolicy s hp panic stale guard hold)
  | configurePoint p enabled coeffs mode tau width hyst lead range rest =>
    exact pointsOk_setPoint h (pointOk_configure (h p) (pointConfigOk_settings range _ _ _ _ _ _) rest _)
  | startScan p first last stride order rest tracking =>
    exact pointsOk_takePoint h (pointOk_enterScanning (h p) (by simp [rest]) (by simp [rest])
      ⟨order, bitVec16_le last, clampNat_range (show 1 ≤ 255 by decide) stride.toNat⟩ _)
  | stopScan p active =>
    exact pointsOk_setPoint h (pointOk_closeStopped (core (h p)) active.1 (h p).qualifying_open _ _ (by decide)
      (by simp))
  | acknowledgeHalt p halted =>
    exact pointsOk_takePoint h (pointOk_enterScanning (h p) (by simp [halted]) (by simp [halted]) (h p).scan_range _)
  | clearCounters =>
    intro p
    cases p
    · exact pointOk_clearCounters (h .mp0)
    · exact pointOk_clearCounters (h .mp1)
  | _ => exact h

theorem pointsOk_accessStep {s t : State} {j : Job} (h : s.PointsOk) (a : AccessStep s j t) : t.PointsOk := fun p => by
  rcases a.point p with e | ⟨key, b, c, e⟩ | e <;> rw [e]
  · exact h p
  · exact pointOk_handEdit (h p) _ _ _ _
  · exact pointOk_restart (h p)

theorem pointsOk_powerOn (s : State) : s.powerOn.PointsOk := fun p => by
  have hp := pointOk_reset p
  cases p
  · exact { hp with }
  · exact { hp with }

theorem pointsOk_commandStep {s t : State} (h : s.PointsOk) (c : CommandStep s t) : t.PointsOk := by
  cases c with
  | event e => exact pointsOk_eventStep h e
  | answered len r _ q => exact pointsOk_sameBlocks (pointsOk_requestStep h q) (.answered _ len r)
  | asking len j _ _ => exact h
  | port p => exact pointsOk_sameBlocks h p.sameBlocks
  | access j _ => exact pointsOk_accessStep (t := (s.runJob j).state) h (s.runJob_step j)
  | evaluate r rest _ _ =>
    intro p
    rw [State.grantEvaluator_point]
    rcases s.evaluate_point r s.chosenQueue p with e | e <;> rw [e]
    · exact h p
    · exact pointOk_countOrphan (h p)
  | place r _ => exact h
  | askNext j _ => exact h
  | dropRecord _ =>
    exact pointsOk_setPoint (s := { s with port := s.port.release }) h (pointOk_dropOldest (h s.pointer.other))
  | powerOn => exact pointsOk_powerOn s

/-- Settles O8: the cases of a step, and for each what it does to a point. -/
theorem everyStepKeepsThePoints : Obligations.EveryStepKeepsThePoints := by
  intro s t h hstep
  rcases step_cases hstep with rfl | ⟨_, rest, _, c⟩
  · rcases s.idle_cases with ⟨i, _, e⟩ | ⟨_, e⟩ <;> rw [e]
    · exact h
    · exact fun p => (s.clkPeriod_point p) ▸ pointOk_clkPeriod (h p)
  · exact pointsOk_commandStep (s := { s with pending := rest }) h c

end Sys2Proof.Proofs.Points

/-! The window logic as a series of moves of one point, and the steps that leave a point's run as it is. -/

namespace Sys2Proof.Machine

/-! ### The moves of the window logic (R107, R113, R116, R119, R64) -/

/-- One move of a point's window logic against its index. -/
inductive WindowMove (idx : List IndexItem) (stale : Bool) (m : MeasuringPoint) : MeasuringPoint → Prop
  | fire (d : Designation) (dir : Travel) (t : TriggerPoint) (armed : m.cursor = .armed d dir (some t)) :
    WindowMove idx stale m
      { m with cursor := .armed d dir (some { t with fired := true }), trg := true, trgLeft := 80 }
  | seek : WindowMove idx stale m (m.seek idx).point
  | opens (d : Designation) (dir : Travel) (t : Option TriggerPoint) (armed : m.cursor = .armed d dir t) :
    WindowMove idx stale m (m.openWindow idx d dir)
  | closes (d : Designation) (dir : Travel) (r : OpenPass) (cause : CloseCause) (opened : m.cursor = .opened d dir r) :
    WindowMove idx stale m (m.closeScanning idx stale cause r).point
  | suspend (cause : SuspendCause) : WindowMove idx stale m (m.suspend stale cause).point

/-- Some moves, one after the other. -/
abbrev WindowMoves (idx : List IndexItem) (stale : Bool) : MeasuringPoint → MeasuringPoint → Prop :=
  Relation.ReflTransGen (WindowMove idx stale)

section
variable (m : MeasuringPoint) (idx : List IndexItem) (stale : Bool)

theorem MeasuringPoint.triggerTest_moves : WindowMoves idx stale m m.triggerTest := by
  rcases m.triggerTest_cases with e | ⟨d, dir, t, hc, _, _, e⟩ <;> rw [e]
  exact .single (.fire d dir t hc)

theorem MeasuringPoint.openingTest_moves : WindowMoves idx stale m (m.openingTest idx stale).point := by
  unfold MeasuringPoint.openingTest
  split
  · next d dir t hc =>
    split_ifs
    · exact .single (.opens d dir t hc)
    · exact .tail (.single (.opens d dir t hc)) (.closes _ _ _ _ rfl)
    · exact .refl
  all_goals exact .refl

theorem MeasuringPoint.closingTest_moves : WindowMoves idx stale m (m.closingTest idx stale).point := by
  unfold MeasuringPoint.closingTest
  split
  · next d dir r hc =>
    split_ifs
    · exact .single (.closes d dir r _ hc)
    · exact .single (.closes d dir r _ hc)
    · exact .refl
  all_goals exact .refl

theorem MeasuringPoint.turnSeek_moves (changed : Bool) : WindowMoves idx stale m (m.turnSeek idx changed).point := by
  unfold MeasuringPoint.turnSeek
  split
  · split_ifs <;> [exact .single .seek; exact .refl]
  · split_ifs <;> [exact .single .seek; exact .refl]
  all_goals exact .refl

theorem MeasuringPoint.windowUpdate_moves (changed outOfRange : Bool) :
    (m.windowUpdate idx stale changed outOfRange).point = m ∨
      m.running = true ∧ WindowMoves idx stale m (m.windowUpdate idx stale changed outOfRange).point := by
  unfold MeasuringPoint.windowUpdate
  split
  · next hs =>
    refine .inr ⟨m.running_iff.2 (.inl hs), ?_⟩
    split_ifs
    · exact .single (.suspend _)
    · exact m.closingTest_moves idx stale
    · exact ((m.turnSeek_moves idx stale changed).trans (MeasuringPoint.triggerTest_moves _ idx stale)).trans
        (MeasuringPoint.openingTest_moves _ idx stale)
  · next hs =>
    split_ifs
    · exact .inr ⟨m.running_iff.2 (.inr hs), .single (.suspend _)⟩
    · exact .inl rfl
  all_goals exact .inl rfl

/-- A position update forms the position, and the window logic of a SCANNING or HALTED point then moves (R115); a DISABLED point
takes none. -/
theorem MeasuringPoint.positionUpdate_moves (chs : Axes Channel) :
    (m.positionUpdate chs idx stale).point = m ∨ (m.positionUpdate chs idx stale).point = m.formUpdate chs ∨
      m.running = true ∧ WindowMoves idx stale (m.formUpdate chs) (m.positionUpdate chs idx stale).point := by
  unfold MeasuringPoint.positionUpdate
  split
  · exact .inr (MeasuringPoint.windowUpdate_moves _ idx stale _ _)
  · exact .inl rfl

theorem MeasuringPoint.takeLoss_moves (lost : Axis → Bool) : WindowMoves idx stale m (m.takeLoss stale lost).point := by
  rcases m.takeLoss_cases stale lost with ⟨_, _, e⟩ | ⟨_, e⟩ <;> rw [e]
  · exact .single (.suspend _)
  · exact .refl

theorem MeasuringPoint.handEdit_moves (key : Nat) (before after : Option IndexItem) :
    WindowMoves idx stale m (m.handEdit idx key before after).point := by
  rcases m.handEdit_cases idx key before after with ⟨_, e⟩ | ⟨_, e⟩ <;> rw [e]
  · exact .single .seek
  · exact .refl

/-- A seek changes the cursor and the trigger line alone. -/
theorem MeasuringPoint.seek_eq : ∃ c g n, (m.seek idx).point = { m with cursor := c, trg := g, trgLeft := n } := by
  rcases m.seek_frame idx with ⟨e, _⟩ | e | ⟨it, dir, tr, g, n, _, e⟩
  · exact ⟨m.cursor, m.trg, m.trgLeft, e⟩
  · exact ⟨_, _, _, e⟩
  · exact ⟨_, _, _, e⟩

end

/-! ### Steps that leave a point's run as it is

A strobe, a commit, a clock period and the counters change neither the state nor the settings of a point, nor its queue, and of its
cursor the open pass record at most. -/

structure SameRun (m n : MeasuringPoint) : Prop where
  state : n.state = m.state
  config : n.config = m.config
  direction : n.direction = m.direction
  scan : n.scan = m.scan
  queue : n.queue = m.queue
  cursor : n.cursor = m.cursor ∨ ∃ d dir r r', m.cursor = .opened d dir r ∧ n.cursor = .opened d dir r'

theorem SameRun.refl (m : MeasuringPoint) : SameRun m m := ⟨rfl, rfl, rfl, rfl, rfl, .inl rfl⟩

theorem SameRun.of_eq {m n : MeasuringPoint} (h : n = m) : SameRun m n := h ▸ .refl m

theorem SameRun.trans {m n o : MeasuringPoint} (h : SameRun m n) (g : SameRun n o) : SameRun m o where
  state := g.state.trans h.state
  config := g.config.trans h.config
  direction := g.direction.trans h.direction
  scan := g.scan.trans h.scan
  queue := g.queue.trans h.queue
  cursor := by
    rcases g.cursor with gc | ⟨d, dir, r, r', gn, go⟩
    · rw [gc]; exact h.cursor
    · rcases h.cursor with hc | ⟨d2, dir2, r2, r2', hm, hn⟩
      · exact .inr ⟨d, dir, r, r', hc ▸ gn, go⟩
      · rw [gn] at hn
        cases hn
        exact .inr ⟨d, dir, r2, r', hm, go⟩

theorem SameRun.running {m n : MeasuringPoint} (h : SameRun m n) : n.running = m.running := by
  unfold MeasuringPoint.running; rw [h.state]

theorem SameRun.designation {m n : MeasuringPoint} (h : SameRun m n) : n.cursor.designation = m.cursor.designation := by
  rcases h.cursor with hc | ⟨d, dir, r, r', hm, hn⟩
  · rw [hc]
  · rw [hm, hn]; rfl

section
variable (m : MeasuringPoint)

theorem SameRun.takeCommit : SameRun m m.takeCommit := by
  rcases m.takeCommit_cases with ⟨_, e⟩ | ⟨d, dir, r, hc, e⟩ <;> rw [e]
  · exact .refl m
  · exact ⟨rfl, rfl, rfl, rfl, rfl, .inr ⟨d, dir, r, _, hc, rfl⟩⟩

theorem SameRun.addStrobe (x : Int) : SameRun m (m.addStrobe x) := by
  rcases m.addStrobe_cases x with ⟨_, e⟩ | ⟨d, dir, r, hc, e⟩ <;> rw [e]
  · exact .refl m
  · exact ⟨rfl, rfl, rfl, rfl, rfl, .inr ⟨d, dir, r, _, hc, rfl⟩⟩

theorem SameRun.setTracker (t : Tracker) : SameRun m (m.setTracker t) := ⟨rfl, rfl, rfl, rfl, rfl, .inl rfl⟩
theorem SameRun.setLine (level : Bool) : SameRun m (m.setLine level) := ⟨rfl, rfl, rfl, rfl, rfl, .inl rfl⟩
theorem SameRun.setCounters (c : Counters) : SameRun m { m with counters := c } := ⟨rfl, rfl, rfl, rfl, rfl, .inl rfl⟩
theorem SameRun.endTrigger : SameRun m m.endTrigger := ⟨rfl, rfl, rfl, rfl, rfl, .inl rfl⟩

theorem SameRun.beginPulse (chs : Axes Channel) : SameRun m (m.beginPulse chs) := by
  unfold MeasuringPoint.beginPulse
  split_ifs
  · exact (SameRun.setCounters m _).trans (.setTracker _ _)
  · exact (SameRun.setCounters m _).trans (.setTracker _ _)
  · exact (SameRun.addStrobe m _).trans (.setTracker _ _)
  · exact .setTracker m _

theorem SameRun.leadingEdge (chs : Axes Channel) : SameRun m (m.leadingEdge chs) := by
  unfold MeasuringPoint.leadingEdge
  dsimp only
  split
  · split
    · exact (SameRun.setLine m _).trans (.beginPulse _ chs)
    all_goals exact .setLine m _
  · exact .setLine m _

theorem SameRun.endPulse (chs : Axes Channel) (latched : Int) (active : Nat) :
    SameRun m (m.endPulse chs latched active) := by
  unfold MeasuringPoint.endPulse MeasuringPoint.endCentrePulse
  split_ifs
  · exact (SameRun.setCounters m _).trans (.setTracker _ _)
  · exact (SameRun.setCounters m _).trans (.setTracker _ _)
  · exact (SameRun.addStrobe m _).trans (.setTracker _ _)
  · exact (SameRun.addStrobe m _).trans (.setTracker _ _)

theorem SameRun.trailingEdge (chs : Axes Channel) (active : Nat) : SameRun m (m.trailingEdge chs active) := by
  unfold MeasuringPoint.trailingEdge
  dsimp only
  split
  · split
    · exact .setLine m _
    · exact (SameRun.setLine m _).trans (.endPulse _ chs _ active)
    · exact (SameRun.setLine m _).trans (.setTracker _ _)
  · exact .setLine m _

theorem SameRun.completePulse : SameRun m m.completePulse := by
  unfold MeasuringPoint.completePulse
  split
  · split
    · exact .refl m
    · exact (SameRun.addStrobe m _).trans (.setTracker _ _)
  all_goals exact .refl m

theorem SameRun.clkPeriod : SameRun m m.clkPeriod := by
  unfold MeasuringPoint.clkPeriod MeasuringPoint.sampleStrobe MeasuringPoint.countTrigger
  split <;> exact ⟨rfl, rfl, rfl, rfl, rfl, .inl rfl⟩

end

/-- One point's run kept, the other point as it was. -/
theorem SameRun.setPoint (s : State) {p : Point} {n : MeasuringPoint} (h : SameRun (s.point p) n) (q : Point) :
    SameRun (s.point q) ((s.setPoint p n).point q) := by
  rw [State.setPoint_point]
  split
  · next hq => rw [hq]; exact h
  · exact .refl _

theorem MediumStep.sameRun {s t : State} (m : MediumStep s t) (p : Point) : SameRun (s.point p) (t.point p) := by
  rcases m.points p with e | e <;> rw [e]
  · exact .refl _
  · exact .takeCommit _

theorem State.evaluate_sameRun (s : State) (p : Point) (r : PassRecord) (q : Point) :
    SameRun (s.point q) ((s.evaluate p r).point q) := by
  rcases s.evaluate_point r p q with e | e <;> rw [e]
  · exact .refl _
  · exact .setCounters _ _

theorem State.clearCounters_sameRun (s : State) (p : Point) : SameRun (s.point p) (s.clearCounters.point p) := by
  cases p <;> exact .setCounters _ _

theorem State.idle_sameRun (s : State) (p : Point) : SameRun (s.point p) (s.idle.point p) := by
  rcases s.idle_cases with ⟨i, _, e⟩ | ⟨_, e⟩ <;> rw [e]
  · exact .refl _
  · exact (s.clkPeriod_point p) ▸ .clkPeriod _

/-- What an event does to a point: a sample, or nothing to its run. -/
theorem EventStep.point_cases {s t : State} (e : EventStep s t) :
    (∃ phases sigok refok, MediumStep (s.sampleUpdated phases sigok refok) t) ∨
      (∀ p, SameRun (s.point p) (t.point p)) := by
  cases e with
  | none => exact .inr fun p => .refl _
  | phaseSample phases sigok refok => exact .inl ⟨phases, sigok, refok, .examine _⟩
  | leadingEdge p => exact .inr (SameRun.setPoint s (.leadingEdge _ _))
  | trailingEdge p active => exact .inr (SameRun.setPoint s (.trailingEdge _ _ _))
  | completion p => exact .inr (SameRun.setPoint s (.completePulse _))
  | triggerEnd p => exact .inr (SameRun.setPoint s (.endTrigger _))
  | tick => exact .inr (MediumStep.tick s).sameRun
  | expiry => exact .inr (MediumStep.expire s).sameRun

/-- An event changes neither the table nor the ports. -/
theorem EventStep.table {s t : State} (e : EventStep s t) : t.table = s.table := by
  cases e with
  | phaseSample phases sigok refok => simp
  | expiry => exact (MediumStep.expire s).table
  | _ => rfl

theorem EventStep.executor {s t : State} (e : EventStep s t) : t.req = s.req := by
  cases e with
  | phaseSample phases sigok refok => simp
  | expiry => exact (MediumStep.expire s).req
  | _ => rfl

end Sys2Proof.Machine

/-! The points and the axes they measure with, at every step (R64). -/

namespace Sys2Proof.Proofs.Tracking

open Sys2Proof.Machine

/-! ### Points: the settings stay, and no move starts a scan -/

/-- The point keeps its settings and is SCANNING or HALTED only if it was. -/
structure NoNewScan (m n : MeasuringPoint) : Prop where
  config : n.config = m.config
  running : n.running = true → m.running = true

theorem NoNewScan.trans {m n o : MeasuringPoint} (h : NoNewScan m n) (g : NoNewScan n o) : NoNewScan m o :=
  ⟨g.config.trans h.config, fun hr => h.running (g.running hr)⟩

theorem noNewScan_of_eq {m n : MeasuringPoint} (h : n = m) : NoNewScan m n := h ▸ ⟨rfl, id⟩

theorem noNewScan_sameRun {m n : MeasuringPoint} (h : SameRun m n) : NoNewScan m n :=
  ⟨h.config, fun hr => h.running ▸ hr⟩

/-- A point that is not SCANNING or HALTED afterwards. -/
theorem noNewScan_of_stopped {m n : MeasuringPoint} (hc : n.config = m.config)
    (hs : n.state ≠ .scanning ∧ n.state ≠ .halted) : NoNewScan m n :=
  ⟨hc, fun h => absurd (n.running_iff.1 h) (not_or.2 hs)⟩

theorem seek_config (m : MeasuringPoint) (idx : List IndexItem) : (m.seek idx).point.config = m.config := by
  obtain ⟨c, g, n, e⟩ := m.seek_eq idx
  rw [e]

theorem noNewScan_seek (m : MeasuringPoint) (idx : List IndexItem) : NoNewScan m (m.seek idx).point := by
  obtain ⟨c, g, n, e⟩ := m.seek_eq idx
  rw [e]
  exact ⟨rfl, id⟩

theorem closeStopped_config (m : MeasuringPoint) (stale : Bool) (cause : CloseCause) :
    (m.closeStopped stale cause).config = m.config := by
  obtain ⟨T, Q, C, e, _⟩ := m.closeStopped_frame stale cause
  rw [e]

theorem windowMove_config {idx : List IndexItem} {stale : Bool} {m n : MeasuringPoint} (h : WindowMove idx stale m n) :
    n.config = m.config := by
  cases h with
  | fire d dir t armed => rfl
  | seek => exact seek_config m idx
  | opens d dir t armed => rfl
  | closes d dir r cause opened =>
    rcases m.closeScanning_cases idx stale cause r with ⟨_, e⟩ | ⟨_, e⟩ <;> rw [e]
    exact seek_config _ idx
  | suspend cause => exact closeStopped_config m stale _

theorem windowMoves_config {idx : List IndexItem} {stale : Bool} {m n : MeasuringPoint} (h : WindowMoves idx stale m n) :
    n.config = m.config := by
  induction h with
  | refl => rfl
  | tail _ move ih => exact (windowMove_config move).trans ih

theorem noNewScan_handEdit (m : MeasuringPoint) (idx : List IndexItem) (key : Nat) (b a : Option IndexItem) :
    NoNewScan m (m.handEdit idx key b a).point := by
  rcases m.handEdit_cases idx key b a with ⟨_, e⟩ | ⟨_, e⟩ <;> rw [e]
  · exact noNewScan_seek m idx
  · exact noNewScan_of_eq rfl

theorem noNewScan_positionUpdate (m : MeasuringPoint) (chs : Axes Channel) (idx : List IndexItem) (stale : Bool) :
    NoNewScan m (m.positionUpdate chs idx stale).point := by
  rcases m.positionUpdate_moves idx stale chs with e | e | ⟨hr, hm⟩
  · exact noNewScan_of_eq e
  · rw [e]; exact ⟨rfl, id⟩
  · have hc := windowMoves_config hm
    exact ⟨hc, fun _ => hr⟩

/-! ### Channels: a TRACKING axis leaves TRACKING by a loss alone -/

theorem countStep_state {c : Channel} {last phase : Phase} (h : (c.countStep last phase).lost = false) :
    (c.countStep last phase).channel.state = c.state := by
  rcases c.countStep_cases last phase with e | e | e | ⟨_, _, _, _, e⟩ <;> rw [e] at h ⊢
  all_goals cases h

theorem countingSample_state {c : Channel} {phase : Phase} {good : Bool}
    (h : (c.countingSample phase good).lost = false) : (c.countingSample phase good).channel.state = c.state := by
  unfold Channel.countingSample Channel.recover Channel.holdStep at h ⊢
  cases hl : c.lastPhase with
  | none => dsimp only; split_ifs <;> rfl
  | some last =>
    simp only [hl] at h ⊢
    split_ifs at h ⊢
    · exact countStep_state h
    · exact countStep_state h
    · cases h
    · rfl

theorem sample_tracking {c : Channel} {phase : Phase} {sigok refok : Bool} (ht : c.state = .tracking)
    (h : (c.sample phase sigok refok).lost = false) : (c.sample phase sigok refok).channel.state = .tracking := by
  have e : c.sample phase sigok refok = { c with sigok := sigok }.countingSample phase (sigok && refok) := by
    simp [Channel.sample, ht]
  rw [e] at h ⊢
  exact (countingSample_state h).trans ht

/-! ### Every step -/

variable {s t : State}

/-- A step that loses no TRACKING axis and starts no scan. -/
theorem scansTrack_of_noNewScan (h : s.ScansTrack) (hp : ∀ p, NoNewScan (s.point p) (t.point p))
    (hc : ∀ a, (s.channels.get a).state = .tracking → (t.channels.get a).state = .tracking) : t.ScansTrack := by
  intro p hr a ha
  refine hc a (h p ((hp p).running hr) a ?_)
  rwa [MeasuringPoint.contributes, (hp p).config] at ha

theorem scansTrack_of_sameRun (h : s.ScansTrack) (hp : ∀ p, SameRun (s.point p) (t.point p))
    (hc : t.channels = s.channels) : t.ScansTrack :=
  scansTrack_of_noNewScan h (fun p => noNewScan_sameRun (hp p)) fun a => by rw [hc]; exact id

theorem scansTrack_mediumStep (h : s.ScansTrack) (m : MediumStep s t) : t.ScansTrack := by
  refine scansTrack_of_noNewScan h (fun p => noNewScan_sameRun (m.sameRun p)) fun a ha => ?_
  rcases m.channels with ⟨hc, _⟩ | hc
  · rw [hc]; exact ha
  · rw [hc a]; exact ha

/-- The losses of a sample stop every point that measures with a lost axis, before its update (R64). -/
theorem scansTrack_sampleUpdated (h : s.ScansTrack) (phases : Axes Phase) (sigok : Axes Bool) (refok : Bool) :
    (s.sampleUpdated phases sigok refok).ScansTrack := by
  intro p hr a ha
  rw [State.sampleUpdated_point] at hr ha
  have hup := noNewScan_positionUpdate (s.lossResult phases sigok refok p).point (s.axesAfter phases sigok refok)
    (s.index p) s.cu.stale
  have hr1 : (s.lossResult phases sigok refok p).point.running = true := hup.running hr
  have ha1 : (s.lossResult phases sigok refok p).point.contributes a = true := by
    unfold MeasuringPoint.contributes at ha ⊢
    rwa [State.updateResult, hup.config] at ha
  rw [State.sampleUpdated_channels, State.axesAfter_get]
  rcases (s.point p).takeLoss_cases s.cu.stale fun a => (s.sampleAxis phases sigok refok a).lost with
    ⟨_, _, e⟩ | ⟨hn, e⟩ <;> rw [State.lossResult, e] at hr1 ha1
  · simp [MeasuringPoint.running, MeasuringPoint.suspend] at hr1
  · have hl : (s.sampleAxis phases sigok refok a).lost = false := by
      rcases hn with hn | hn
      · exact absurd hr1 (by simp [PointResult.quiet, hn])
      · exact hn a ha1
    exact sample_tracking (h p hr1 a ha1) hl

theorem scansTrack_eventStep (h : s.ScansTrack) (e : EventStep s t) : t.ScansTrack := by
  cases e with
  | phaseSample phases sigok refok =>
    exact scansTrack_mediumStep (scansTrack_sampleUpdated h phases sigok refok) (.examine _)
  | expiry => exact scansTrack_mediumStep h (.expire s)
  | none => exact h
  | leadingEdge p => exact scansTrack_of_sameRun h (SameRun.setPoint s (.leadingEdge _ _)) rfl
  | trailingEdge p active => exact scansTrack_of_sameRun h (SameRun.setPoint s (.trailingEdge _ _ _)) rfl
  | completion p => exact scansTrack_of_sameRun h (SameRun.setPoint s (.completePulse _)) rfl
  | triggerEnd p => exact scansTrack_of_sameRun h (SameRun.setPoint s (.endTrigger _)) rfl
  | tick => exact h

/-- A change of one axis that no scan uses, or that leaves it TRACKING (R17, R22). -/
theorem scansTrack_setChannel (h : s.ScansTrack) {a : Axis} {c : Channel}
    (hc : s.axisInUse a = false ∨ c.state = .tracking) :
    State.ScansTrack { s with channels := s.channels.set a c } := by
  intro p hr b hb
  show ((s.channels.set a c).get b).state = .tracking
  rw [Axes.get_set]
  split
  · next hab =>
    rcases hc with hc | hc
    · subst hab
      exact absurd ((s.axisInUse_iff b).2 ⟨p, hr, hb⟩) (by simp [hc])
    · exact hc
  · exact h p hr b hb

/-- One point replaced. -/
theorem scansTrack_setPoint (h : s.ScansTrack) {p : Point} {n : MeasuringPoint}
    (hn : n.running = true → ∀ a, n.contributes a = true → (s.channels.get a).state = .tracking) :
    (s.setPoint p n).ScansTrack := by
  intro q
  rw [State.setPoint_point]
  split
  · exact hn
  · exact h q

theorem scansTrack_takePoint (h : s.ScansTrack) {p : Point} {r : PointResult}
    (hn : r.point.running = true → ∀ a, r.point.contributes a = true → (s.channels.get a).state = .tracking) :
    (s.takePoint p r).ScansTrack := by
  intro q
  rw [State.takePoint_point, State.takePoint_channels]
  split
  · exact hn
  · exact h q

theorem scansTrack_seek {m : MeasuringPoint} {chs : Axes Channel} {idx : List IndexItem}
    (h : ∀ a, m.contributes a = true → (chs.get a).state = .tracking) (a : Axis)
    (ha : (m.seek idx).point.contributes a = true) : (chs.get a).state = .tracking := by
  refine h a ?_
  rwa [MeasuringPoint.contributes, seek_config] at ha

theorem scansTrack_requestStep {u : State} (h : s.ScansTrack) (r : RequestStep s u) : u.ScansTrack := by
  cases r with
  | configureAxis a fitted invert wavelength fold drop valid unused => exact scansTrack_setChannel h (.inl unused)
  | presetAxis a value range ok => exact scansTrack_setChannel h (.inr rfl)
  | supplyMedium generation mask w => exact scansTrack_mediumStep h (.supply s generation mask w)
  | setPolicy hp panic stale guard hold => exact scansTrack_mediumStep h (.setPolicy s hp panic stale guard hold)
  | configurePoint p enabled coeffs mode tau width hyst lead range rest =>
    refine scansTrack_setPoint h fun hr => absurd ((MeasuringPoint.running_iff _).1 hr) ?_
    unfold MeasuringPoint.configure
    dsimp only
    split <;> simp
  | startScan p first last stride order rest tracking =>
    refine scansTrack_takePoint h fun _ => scansTrack_seek fun a ha => ?_
    by_contra hne
    refine absurd tracking (Bool.not_eq_false _ ▸ ?_)
    exact (anyAxis_iff _).2 ⟨a, Bool.and_eq_true_iff.2 ⟨ha, decide_eq_true hne⟩⟩
  | stopScan p active =>
    exact scansTrack_setPoint h fun hr => absurd ((MeasuringPoint.running_iff _).1 hr) (by simp [MeasuringPoint.stopScan])
  | acknowledgeHalt p halted =>
    exact scansTrack_takePoint h fun _ =>
      scansTrack_seek fun a ha => h p ((MeasuringPoint.running_iff _).2 (.inr halted)) a ha
  | clearCounters => exact scansTrack_of_sameRun h s.clearCounters_sameRun rfl
  | _ => exact h

theorem noNewScan_restart (m : MeasuringPoint) : NoNewScan m m.restart := by
  refine noNewScan_of_stopped rfl ?_
  unfold MeasuringPoint.restart
  dsimp only
  split <;> simp

theorem scansTrack_accessStep {j : Job} (h : s.ScansTrack) (a : AccessStep s j t) : t.ScansTrack := by
  refine scansTrack_of_noNewScan h (fun p => ?_) fun b => by rw [a.channels]; exact id
  rcases a.point p with e | ⟨key, b, c, e⟩ | e <;> rw [e]
  · exact noNewScan_of_eq rfl
  · exact noNewScan_handEdit _ _ _ _ _
  · exact noNewScan_restart _

theorem scansTrack_commandStep (h : s.ScansTrack) (c : CommandStep s t) : t.ScansTrack := by
  cases c with
  | event e => exact scansTrack_eventStep h e
  | @answered u len r _ q => exact scansTrack_requestStep (u := u) h q
  | asking len j _ _ => exact h
  | port p => exact scansTrack_of_sameRun h (fun q => .of_eq (p.sameBlocks.point q)) p.sameBlocks.channels
  | access j _ => exact scansTrack_accessStep (t := (s.runJob j).state) h (s.runJob_step j)
  | evaluate r rest _ _ => exact scansTrack_of_sameRun h (s.evaluate_sameRun s.chosenQueue r) (by simp)
  | place r _ => exact h
  | askNext j _ => exact h
  | dropRecord _ =>
    exact scansTrack_setPoint (s := { s with port := s.port.release }) h (h s.pointer.other)
  | powerOn =>
    intro p hr
    cases p <;> cases hr

/-- Settles O9: the cases of a step. A scan starts with its axes TRACKING, keeps its settings, and is suspended before its update by
the loss of one of them. -/
theorem everyStepKeepsScansTracking : Obligations.EveryStepKeepsScansTracking := by
  intro s t h hstep
  rcases step_cases hstep with rfl | ⟨_, rest, _, c⟩
  · refine scansTrack_of_sameRun h s.idle_sameRun ?_
    rcases s.idle_cases with ⟨i, _, e⟩ | ⟨_, e⟩ <;> rw [e]
    rfl
  · exact scansTrack_commandStep (s := { s with pending := rest }) h c

end Sys2Proof.Proofs.Tracking

/-! The line table at every step, of 04_the_line_table.md (R71 to R73, R79, R80). -/

namespace Sys2Proof.Proofs.Table

open Sys2Proof.Machine

/-! ### What a table as it should be says of its items -/

section
variable {t : LineTable} {p : Point} {it a : IndexItem}

theorem slot_lt (h : TableOk t) {n : Nat} {e : Entry} (he : (t.slot n).entry = some e) : n < Config.slotCount :=
  h.slots.number_range _ (mem_of_entry_eq_some he)

/-- An item stands for the entry in its slot (R80). -/
theorem item_eq (h : TableOk t) (hm : it ∈ t.index.get p) {e : Entry} (he : (t.slot it.slot).entry = some e) :
    e.point = p ∧ it = indexItem it.slot (t.slot it.slot).revision e := by
  obtain ⟨e', he', hp, hi⟩ := h.listed p it hm
  cases he.symm.trans he'
  exact ⟨hp, hi⟩

theorem item_key (h : TableOk t) (hm : it ∈ t.index.get p) {e : Entry} (he : (t.slot it.slot).entry = some e) :
    e.key = it.key := by
  rw [(item_eq h hm he).2]
  rfl

theorem item_window (h : TableOk t) (hm : it ∈ t.index.get p) : it.lower ≤ it.upper := by
  obtain ⟨e, he, _, hi⟩ := h.listed p it hm
  have hw := (h.definitions _ e he).halfWidth_range
  rw [hi]
  simp only [indexItem, Entry.lower, Entry.upper]
  omega

/-- Two items of one index have the same key exactly when they have the same slot. -/
theorem key_eq_iff (h : TableOk t) (hm : it ∈ t.index.get p) (ha : a ∈ t.index.get p) :
    a.key = it.key ↔ a.slot = it.slot := by
  constructor
  · intro hk
    rw [(h.ordered p).eq_of_key ha hm hk]
  · intro hs
    obtain ⟨e, he, _, hi⟩ := h.listed p a ha
    rw [hs] at he
    rw [← item_key h hm he, hi]
    rfl

/-- A window that passes the ORDER check is apart from every other of the point (R79, R81). -/
theorem window_apart (h : TableOk t) {key : Nat} {lo hi : Int} (order : ordered (t.index.get p) key lo hi = true) :
    ∀ b ∈ t.index.get p, (b.key < key → b.upper < lo) ∧ (key < b.key → hi < b.lower) :=
  ordered_apart (h.ordered p) (fun _ hb => item_window h hb) order

end

/-! ### One slot and one index written together (R80) -/

/-- A write of slot `n` and of the index of `p` keeps the table, when the slot belongs to `p` before and after, and the index lists
the new entry in place of the old one. -/
theorem tableOk_write {t : LineTable} (h : TableOk t) {n : Nat} {v : Slot} {p : Point} {idx : List IndexItem}
    (hn : n < Config.slotCount) (revision : v.revision ≤ 65535)
    (written : ∀ e, v.entry = some e → DefinitionOk e ∧ e.point = p)
    (before : ∀ e, (t.slot n).entry = some e → e.point = p) (order : IndexOrdered idx)
    (mem : ∀ it, it ∈ idx ↔
      (∃ e, v.entry = some e ∧ it = indexItem n v.revision e) ∨ (it ∈ t.index.get p ∧ it.slot ≠ n)) :
    TableOk ((t.setSlot n v).setIndex p idx) := by
  have hslot : ∀ m, ((t.setSlot n v).setIndex p idx).slot m = if m = n then v else t.slot m := fun m =>
    LineTable.slot_setSlot h.slots n v m
  have hidx : ∀ q, ((t.setSlot n v).setIndex p idx).index.get q = if q = p then idx else t.index.get q := fun q =>
    LineTable.setIndex_index _ p q idx
  refine ⟨h.slots.set hn revision, fun m e he => ?_, fun q => ?_, fun q it hit => ?_, fun m e he => ?_⟩
  · rw [hslot] at he
    split at he
    · exact (written e he).1
    · exact h.definitions m e he
  · rw [hidx]
    split
    · exact order
    · exact h.ordered q
  · rw [hidx] at hit
    simp only [hslot]
    split at hit
    · next hq =>
      rcases (mem it).1 hit with ⟨e, he, hi⟩ | ⟨hm, hne⟩
      · have hs : it.slot = n := by rw [hi]; rfl
        rw [if_pos hs, hs]
        exact ⟨e, he, (written e he).2.trans hq.symm, hi⟩
      · rw [if_neg hne, hq]
        exact h.listed p it hm
    · next hq =>
      obtain ⟨e, he, hp, hi⟩ := h.listed q it hit
      have hne : it.slot ≠ n := fun hs => hq (hp.symm.trans (before e (hs ▸ he)))
      rw [if_neg hne]
      exact ⟨e, he, hp, hi⟩
  · rw [hslot] at he ⊢
    rw [hidx]
    split at he
    · next hm =>
      rw [if_pos (written e he).2, if_pos hm, hm]
      exact (mem _).2 (.inl ⟨e, he, rfl⟩)
    · next hm =>
      rw [if_neg hm]
      have hc := h.complete m e he
      split
      · next hp => exact (mem _).2 (.inr ⟨hp ▸ hc, hm⟩)
      · exact hc

theorem mem_replaceItem_iff {idx : List IndexItem} {it b a : IndexItem} (hb : b ∈ idx) (hk : b.key = it.key) :
    a ∈ replaceItem it idx ↔ a = it ∨ (a ∈ idx ∧ a.key ≠ it.key) := by
  refine ⟨mem_replaceItem, ?_⟩
  unfold replaceItem
  rintro (rfl | ⟨ha, hne⟩)
  · exact List.mem_map.2 ⟨b, hb, by simp [hk]⟩
  · exact List.mem_map.2 ⟨a, ha, by simp [hne]⟩

/-- The entry of an item rewritten in its slot, with its item replaced (R88, R89). -/
theorem tableOk_replace {t : LineTable} (h : TableOk t) {p : Point} {it : IndexItem} (hm : it ∈ t.index.get p)
    {e : Entry} {rev : Nat} (revision : rev ≤ 65535) (defined : DefinitionOk e) (point : e.point = p)
    (key : e.key = it.key)
    (apart : ∀ b ∈ t.index.get p, (b.key < it.key → b.upper < e.lower) ∧ (it.key < b.key → e.upper < b.lower)) :
    TableOk ((t.setSlot it.slot { revision := rev, entry := some e }).setIndex p
      (replaceItem (indexItem it.slot rev e) (t.index.get p))) := by
  have hk : (indexItem it.slot rev e).key = it.key := key
  obtain ⟨e0, he0, hp0, -⟩ := h.listed p it hm
  refine tableOk_write h (slot_lt h he0) revision ?_ ?_ (IndexOrdered.replace (h.ordered p) ?_) fun a => ?_
  · rintro _ ⟨⟩
    exact ⟨defined, point⟩
  · intro e1 he1
    cases he0.symm.trans he1
    exact hp0
  · rw [hk]
    exact apart
  · rw [mem_replaceItem_iff hm hk.symm, hk]
    refine or_congr ⟨fun ha => ⟨e, rfl, ha⟩, fun ⟨e1, he1, ha⟩ => by cases he1; exact ha⟩ (and_congr_right fun ha => ?_)
    rw [ne_eq, key_eq_iff h hm ha]

/-! ### The accesses (R86, R88, R89, R92, R99) -/

variable {s t : State}

theorem tableOk_insertEntry (h : TableOk s.table) {n : Nat} {e : Entry} (defined : DefinitionOk e)
    (fresh : findKey (s.index e.point) e.key = none) (lowest : s.table.lowestFree = some n)
    (order : ordered (s.index e.point) e.key e.lower e.upper = true) : TableOk (s.insertEntry n e).table := by
  obtain ⟨hn, hfree, -⟩ := LineTable.lowestFree_some lowest
  have hins := (h.ordered e.point).insert (it := indexItem n (nextRevision (s.table.slot n).revision) e)
    (findKey_none fresh) (window_apart h order)
  unfold State.insertEntry
  rw [State.handEdit_table]
  refine tableOk_write h hn (nextRevision_le _) ?_ ?_ hins fun it => ?_
  · rintro _ ⟨⟩
    exact ⟨defined, rfl⟩
  · intro e1 he1
    rw [hfree] at he1
    cases he1
  · rw [mem_insertItem]
    refine or_congr ⟨fun ha => ⟨e, rfl, ha⟩, fun ⟨e1, he1, ha⟩ => by cases he1; exact ha⟩
      ⟨fun ha => ⟨ha, fun hs => ?_⟩, And.left⟩
    obtain ⟨e1, he1, -⟩ := h.listed _ it ha
    rw [hs, hfree] at he1
    cases he1

theorem tableOk_rewriteEntry (h : TableOk s.table) {p : Point} {key : Nat} {l : LiveEntry} {nominal : Int}
    {halfWidth : Nat} {hold trigger : Bool} (nominal_range : InPositionRange nominal)
    (width_range : Config.halfWidthMin ≤ halfWidth ∧ halfWidth ≤ Config.halfWidthMax)
    (found : s.table.findEntry p key = some l)
    (order : ordered (s.index p) key (l.entry.amend nominal halfWidth hold trigger).lower
      (l.entry.amend nominal halfWidth hold trigger).upper = true) :
    TableOk (s.rewriteEntry p l.item (l.entry.amend nominal halfWidth hold trigger)).table := by
  obtain ⟨hm, hkey, he⟩ := LineTable.findEntry_some found
  have hk := item_key h hm he
  have hit : ({ indexItem l.item.slot (nextRevision (s.table.slot l.item.slot).revision)
      (l.entry.amend nominal halfWidth hold trigger) with key := l.item.key } : IndexItem) =
      indexItem l.item.slot (nextRevision (s.table.slot l.item.slot).revision)
        (l.entry.amend nominal halfWidth hold trigger) := by
    rw [← hk]; rfl
  unfold State.rewriteEntry
  rw [State.handEdit_table, hit]
  refine tableOk_replace h hm (nextRevision_le _) ?_ (item_eq h hm he).1 hk ?_
  · exact ⟨(h.definitions _ _ he).key_range, nominal_range, width_range⟩
  · rw [hkey]
    exact window_apart h order

theorem tableOk_clear (h : TableOk s.table) {p : Point} {key : Nat} {l : LiveEntry}
    (found : s.table.findEntry p key = some l) :
    TableOk (s.writeTable p l.item.slot
      { revision := nextRevision (s.table.slot l.item.slot).revision
        entry := some { l.entry with results := .load } }
      (replaceItem { l.item with revision := nextRevision (s.table.slot l.item.slot).revision } (s.index p))).table := by
  obtain ⟨hm, -, he⟩ := LineTable.findEntry_some found
  obtain ⟨hp, hi⟩ := item_eq h hm he
  have hit : ({ l.item with revision := nextRevision (s.table.slot l.item.slot).revision } : IndexItem) =
      indexItem l.item.slot (nextRevision (s.table.slot l.item.slot).revision) { l.entry with results := .load } := by
    rw [hi]; rfl
  have hlow : l.entry.lower = l.item.lower := by rw [hi]; rfl
  have hup : l.entry.upper = l.item.upper := by rw [hi]; rfl
  rw [hit]
  refine tableOk_replace h hm (nextRevision_le _) ?_ hp (show l.entry.key = l.item.key from item_key h hm he)
    fun b hb => ?_
  · have hd := h.definitions _ _ he
    exact ⟨hd.key_range, hd.nominal_range, hd.halfWidth_range⟩
  · show (b.key < l.item.key → b.upper < l.entry.lower) ∧ (l.item.key < b.key → l.entry.upper < b.lower)
    rw [hlow, hup]
    exact ⟨(h.ordered p).upper_lt hb hm, (h.ordered p).upper_lt hm hb⟩

theorem tableOk_retireEntry (h : TableOk s.table) {p : Point} {it : IndexItem} (hm : it ∈ s.index p) :
    TableOk (s.retireEntry p it).table := by
  obtain ⟨e, he, hp, -⟩ := h.listed p it hm
  unfold State.retireEntry
  rw [State.handEdit_table]
  refine tableOk_write h (slot_lt h he) (nextRevision_le _) ?_ ?_ ((h.ordered p).remove _) fun a => ?_
  · rintro _ ⟨⟩
  · intro e1 he1
    cases he.symm.trans he1
    exact hp
  · rw [mem_removeKey]
    refine ⟨fun ha => .inr ⟨ha.1, fun hs => ha.2 ((key_eq_iff h hm ha.1).2 hs)⟩, ?_⟩
    rintro (⟨e1, he1, -⟩ | ha)
    · cases he1
    · exact ⟨ha.1, fun hk => ha.2 ((key_eq_iff h hm ha.1).1 hk)⟩

theorem tableOk_empty {t : LineTable} (slots : SlotsOk t.slots) (free : ∀ n, (t.slot n).entry = none)
    (index : ∀ p, t.index.get p = []) : TableOk t where
  slots := slots
  definitions n e he := by rw [free] at he; cases he
  ordered p := by rw [index]; exact .nil
  listed p it hit := by rw [index] at hit; cases hit
  complete n e he := by rw [free] at he; cases he

theorem tableOk_accessStep {j : Job} (h : TableOk s.table) (hj : JobOk j) (a : AccessStep s j t) : TableOk t.table := by
  cases a with
  | none => exact h
  | insert n e defined load fresh lowest order => exact tableOk_insertEntry h (defined hj) fresh lowest order
  | rewrite p key l nominal halfWidth hold trigger defined found closed order =>
    exact tableOk_rewriteEntry h (defined hj).1 (defined hj).2 found order
  | clear p key l found => exact tableOk_clear h found
  | retire p it listed closed => exact tableOk_retireEntry h listed
  | restart => exact tableOk_empty h.slots.restart (restartSlots_entry _) fun p => by cases p <;> rfl

/-! ### The evaluator (R134) -/

/-- Results written keep the definition, the revision and the index. -/
theorem tableOk_setResults {t : LineTable} (h : TableOk t) {n rev : Nat} {e : Entry}
    (hs : t.slot n = { revision := rev, entry := some e }) (results : Results) :
    TableOk (t.setSlot n { revision := rev, entry := some { e with results := results } }) := by
  have he : (t.slot n).entry = some e := by rw [hs]
  have hmem : indexItem n rev e ∈ t.index.get e.point := by
    have hc := h.complete n e he
    rwa [hs] at hc
  have hidx : ∀ v : LineTable, v.index = t.index → v.setIndex e.point (t.index.get e.point) = v := by
    rintro v hv
    unfold LineTable.setIndex
    rw [← hv]
    refine congrArg (LineTable.mk v.slots) (Pair.eq_of_get fun q => ?_)
    rw [Pair.get_set]
    split
    · next hq => rw [hq]
    · rfl
  rw [← hidx (t.setSlot n _) rfl]
  refine tableOk_write h (slot_lt h he) ?_ ?_ ?_ (h.ordered _) fun it => ?_
  · have hr := h.slots.revision_range _ (mem_of_entry_eq_some he)
    rwa [show slotGet t.slots n = _ from hs] at hr
  · rintro _ ⟨⟩
    have hd := h.definitions n e he
    exact ⟨⟨hd.key_range, hd.nominal_range, hd.halfWidth_range⟩, rfl⟩
  · rintro e1 he1
    cases he.symm.trans he1
    rfl
  · constructor
    · intro hm
      by_cases hn : it.slot = n
      · have hi := (item_eq h hm (by rw [hn]; exact he)).2
        rw [hn, hs] at hi
        exact .inl ⟨_, rfl, hi⟩
      · exact .inr ⟨hm, hn⟩
    · rintro (⟨e1, he1, hi⟩ | ⟨hm, -⟩)
      · cases he1
        rw [hi]
        exact hmem
      · exact hm

theorem tableOk_evaluate (h : TableOk s.table) (p : Point) (r : PassRecord) : TableOk (s.evaluate p r).table := by
  rcases s.evaluate_cases p r with ⟨e, hs, e1⟩ | ⟨_, e1⟩ <;> rw [e1]
  · rw [State.applyRecord_table]
    exact tableOk_setResults h hs _
  · exact h

/-! ### Every step -/

theorem tableOk_reset : TableOk State.reset.table :=
  tableOk_empty slotsOk_nil (fun _ => rfl) fun p => by cases p <;> rfl

theorem requestStep_table {u : State} (r : RequestStep s u) : u.table = s.table := by
  cases r with
  | supplyMedium generation mask w => exact (MediumStep.supply s generation mask w).table
  | setPolicy hp panic stale guard hold => exact (MediumStep.setPolicy s hp panic stale guard hold).table
  | _ => simp [State.clearCounters, State.clearNamed]

theorem executorJobOk_waiting {x : Executor} {j : Job} (h : ExecutorJobOk x) (hx : x = .waiting j) : JobOk j := by
  rw [hx] at h
  exact h

theorem tableInv_commandStep (h : s.TableInv) (c : CommandStep s t) : t.TableInv := by
  obtain ⟨ht, hx⟩ := h
  cases c with
  | event e => exact ⟨by rw [e.table]; exact ht, by rw [e.executor]; exact hx⟩
  | @answered u len r _ q => exact ⟨by rw [State.answered_table, requestStep_table q]; exact ht, trivial⟩
  | asking len j _ ok => exact ⟨ht, ok⟩
  | port p => exact ⟨by rw [p.sameBlocks.table]; exact ht, by rw [p.executor]; exact hx⟩
  | access j granted =>
    have hj := executorJobOk_waiting hx granted.1
    exact ⟨tableOk_accessStep (t := (s.runJob j).state) ht hj (s.runJob_step j), s.runJob_next hj⟩
  | evaluate r rest _ _ => exact ⟨tableOk_evaluate ht s.chosenQueue r, by simpa using hx⟩
  | place r _ => exact ⟨ht, trivial⟩
  | askNext j done => exact ⟨ht, by rw [done] at hx; exact hx⟩
  | dropRecord _ => exact ⟨ht, hx⟩
  | powerOn => exact ⟨tableOk_reset, trivial⟩

/-- Settles O10: the cases of a step; the accesses write one slot and one index together, or empty the table. -/
theorem everyStepKeepsTheLineTable : Obligations.EveryStepKeepsTheLineTable := by
  intro s t h hstep
  rcases step_cases hstep with rfl | ⟨_, rest, _, c⟩
  · rcases s.idle_cases with ⟨i, _, e⟩ | ⟨_, e⟩ <;> rw [e] <;> exact h
  · exact tableInv_commandStep (s := { s with pending := rest }) h c

end Sys2Proof.Proofs.Table

/-! The entries that the cursors designate, at every step, of 05_scanning_cursor_and_windows.md (R101, R105). -/

namespace Sys2Proof.Proofs.Cursors

open Sys2Proof.Machine Sys2Proof.Proofs.Table Sys2Proof.Proofs.Points

/-! ### A cursor and an index -/

/-- In the index one slot has one key. -/
def KeyBySlot (idx idx' : List IndexItem) : Prop := ∀ a ∈ idx, ∀ b ∈ idx', b.slot = a.slot → b.key = a.key

theorem keyBySlot_index {t : LineTable} (h : TableOk t) (p : Point) : KeyBySlot (t.index.get p) (t.index.get p) :=
  fun _ ha _ hb => (key_eq_iff h ha hb).2

section
variable {m n : MeasuringPoint} {idx idx' : List IndexItem}

theorem designates_of_none (h : m.cursor.designation = none) : Designates m idx := fun d hd => by
  rw [h] at hd
  cases hd

theorem designates_of_inactive (h : m.cursor = .inactive) : Designates m idx := designates_of_none (by rw [h]; rfl)

/-- The slot and the key that a cursor designates, and the scan, are all that is asked. -/
theorem designates_congr (h : Designates m idx) (scan : n.scan = m.scan)
    (same : ∀ d, n.cursor.designation = some d →
      ∃ d', m.cursor.designation = some d' ∧ d'.slot = d.slot ∧ d'.key = d.key) : Designates n idx := fun d hd => by
  obtain ⟨d', hd', hs, hk⟩ := same d hd
  obtain ⟨it, hit, h1, h2, h3⟩ := h d' hd'
  exact ⟨it, hit, h1.trans hs, h2.trans hk, by rw [scan]; exact h3⟩

theorem designates_of_eq (h : Designates m idx) (scan : n.scan = m.scan) (cursor : n.cursor = m.cursor) :
    Designates n idx :=
  designates_congr h scan fun d hd => ⟨d, by rw [← cursor]; exact hd, rfl, rfl⟩

theorem designates_sameRun (h : Designates m idx) (r : SameRun m n) : Designates n idx :=
  designates_congr h r.scan fun d hd => ⟨d, by rw [← r.designation]; exact hd, rfl, rfl⟩

/-- A seek designates an eligible item of its index; an arming that it keeps has that item's key as well (R106, R107). -/
theorem designates_seek (h : ∀ d, m.cursor.designation = some d → ∀ it ∈ idx, it.slot = d.slot → it.key = d.key) :
    Designates (m.seek idx).point idx := by
  rcases m.seek_frame idx with ⟨e, it, dir, ht, hsame⟩ | e | ⟨it, dir, tr, g, n, ht, e⟩ <;> rw [e]
  · obtain ⟨hit, hel, -, -⟩ := MeasuringPoint.seekTarget_some ht
    unfold Cursor.sameArming at hsame
    split at hsame
    · next d dir' t hc =>
      simp only [decide_eq_true_eq] at hsame
      intro d2 hd2
      have hd : m.cursor.designation = some d := by rw [hc]; rfl
      cases hd.symm.trans hd2
      exact ⟨it, hit, hsame.1.symm, h d hd it hit hsame.1.symm, hel⟩
    all_goals cases hsame
  · exact designates_of_none rfl
  · obtain ⟨hit, hel, -, -⟩ := MeasuringPoint.seekTarget_some ht
    intro d hd
    cases hd
    exact ⟨it, hit, rfl, rfl, hel⟩

/-- A seek in an index that agrees with the one in which the cursor designated its entry. -/
theorem designates_seek_of (h : Designates m idx) (hk : KeyBySlot idx idx') : Designates (m.seek idx').point idx' :=
  designates_seek fun d hd it hit hs => by
    obtain ⟨a, ha, h1, h2, -⟩ := h d hd
    exact (hk a ha it hit (hs.trans h1.symm)).trans h2

theorem closeStopped_cursor (m : MeasuringPoint) (stale : Bool) (cause : CloseCause) :
    (m.closeStopped stale cause).cursor = .inactive := by
  obtain ⟨T, Q, C, e, _⟩ := m.closeStopped_frame stale cause
  rw [e]

theorem designates_windowMove {stale : Bool} (hk : KeyBySlot idx idx) (h : Designates m idx)
    (move : WindowMove idx stale m n) : Designates n idx := by
  cases move with
  | fire d dir t armed => exact designates_congr h rfl fun d2 hd2 => ⟨d2, by rw [armed]; exact hd2, rfl, rfl⟩
  | seek => exact designates_seek_of h hk
  | opens d dir t armed =>
    refine designates_congr h rfl fun d2 hd2 => ⟨d, by rw [armed]; rfl, ?_⟩
    cases hd2
    exact ⟨rfl, rfl⟩
  | closes d dir r cause opened =>
    rcases m.closeScanning_cases idx stale cause r with ⟨_, e⟩ | ⟨_, e⟩ <;> rw [e]
    · exact designates_seek_of (designates_of_eq h rfl rfl) hk
    · exact designates_of_inactive rfl
  | suspend cause => exact designates_of_inactive (closeStopped_cursor m stale _)

theorem designates_windowMoves {stale : Bool} (hk : KeyBySlot idx idx) (h : Designates m idx)
    (moves : WindowMoves idx stale m n) : Designates n idx := by
  induction moves with
  | refl => exact h
  | tail _ move ih => exact designates_windowMove hk ih move

theorem designates_positionUpdate (hk : KeyBySlot idx idx) (h : Designates m idx) (chs : Axes Channel) (stale : Bool) :
    Designates (m.positionUpdate chs idx stale).point idx := by
  have hform : Designates (m.formUpdate chs) idx := designates_of_eq h rfl rfl
  rcases m.positionUpdate_moves idx stale chs with e | e | ⟨_, moves⟩
  · rw [e]; exact h
  · rw [e]; exact hform
  · exact designates_windowMoves hk hform moves

/-- An edit that leaves every item of another key alone: when it touches the designated entry, the cursor is ARMED on it and seeks, for
an OPEN entry is not edited (R84, R87, R91, R109). -/
theorem designates_handEdit (ok : PointOk m) (h : Designates m idx) {key : Nat} (before after : Option IndexItem)
    (hk : KeyBySlot idx idx') (kept : ∀ it ∈ idx, it.key ≠ key → it ∈ idx')
    (closed : ∀ d dir r, m.cursor = .opened d dir r → d.key ≠ key) :
    Designates (m.handEdit idx' key before after).point idx' := by
  rcases m.handEdit_cases idx' key before after with ⟨_, e⟩ | ⟨hno, e⟩ <;> rw [e]
  · exact designates_seek_of h hk
  · intro d hd
    obtain ⟨it, hit, hs, hkey, hel⟩ := h d hd
    refine ⟨it, kept it hit fun hke => ?_, hs, hkey, hel⟩
    have hdk : d.key = key := hkey.symm.trans hke
    cases hc : m.cursor with
    | inactive => simp [PointResult.quiet, hc, Cursor.designation] at hd
    | atEnd => simp [PointResult.quiet, hc, Cursor.designation] at hd
    | armed d2 dir t =>
      have hsc := state_eq_scanning_of_cursor ok (by simp [hc])
      simp only [PointResult.quiet, hc, Cursor.designation, Option.some.injEq] at hd
      simp [MeasuringPoint.editSeeks, hc, hsc, hd, hdk] at hno
    | opened d2 dir r =>
      simp only [PointResult.quiet, hc, Cursor.designation, Option.some.injEq] at hd
      exact closed d2 dir r hc (hd ▸ hdk)

end

/-! ### The accesses -/

theorem index_of_table {s t : State} (h : t.table = s.table) (p : Point) : t.index p = s.index p :=
  congrArg (fun v => v.index.get p) h

variable {s t : State}

/-- The cursors designate entries of their points. -/
def DesignatesAll (s : State) : Prop := ∀ p, Designates (s.point p) (s.index p)

/-- An open entry is not the one edited. -/
theorem key_ne_of_closed (h : TableOk s.table) {p : Point} {it : IndexItem} (hm : it ∈ s.index p)
    (hd : Designates (s.point p) (s.index p)) (closed : (s.point p).entryOpen it.slot = false) {d : Designation}
    {dir : Travel} {r : OpenPass} (hc : (s.point p).cursor = .opened d dir r) : d.key ≠ it.key := by
  obtain ⟨a, ha, hs, hk, -⟩ := hd d (by rw [hc]; rfl)
  rw [← hk]
  intro hkey
  have hslot := (key_eq_iff h hm ha).1 hkey
  simp [MeasuringPoint.entryOpen, MeasuringPoint.entryState, hc, ← hs, hslot] at closed

/-- One point's slot and index written, and the edit handed to it: the other point has its cursor and its index still. -/
theorem designatesAll_writeEdit (h : DesignatesAll s) (ok : s.PointsOk) {p : Point} {n : Nat} {v : Slot}
    {idx : List IndexItem} {key : Nat} (before after : Option IndexItem) (hk : KeyBySlot (s.index p) idx)
    (kept : ∀ it ∈ s.index p, it.key ≠ key → it ∈ idx)
    (closed : ∀ d dir r, (s.point p).cursor = .opened d dir r → d.key ≠ key) :
    DesignatesAll ((s.writeTable p n v idx).handEdit p key before after) := by
  intro q
  rw [State.handEdit_point, State.handEdit_index, State.writeTable_index_same, State.writeTable_index]
  split
  · exact designates_handEdit (ok p) (h p) before after hk kept closed
  · exact h q

theorem designatesAll_accessStep {j : Job} (h : DesignatesAll s) (ht : TableOk s.table) (ok : s.PointsOk)
    (a : AccessStep s j t) : DesignatesAll t := by
  cases a with
  | none => exact h
  | insert n e defined load fresh lowest order =>
    refine designatesAll_writeEdit h ok _ _ ?_ (fun it hit _ => mem_insertItem.2 (.inr hit)) fun d dir r hc => ?_
    · intro a ha b hb hs
      rcases mem_insertItem.1 hb with rfl | hb
      · obtain ⟨e1, he1, -⟩ := ht.listed _ a ha
        have hn : n = a.slot := hs
        rw [← hn, (LineTable.lowestFree_some lowest).2.1] at he1
        cases he1
      · exact keyBySlot_index ht _ a ha b hb hs
    · obtain ⟨it, hit, -, hk, -⟩ := h e.point d (by rw [hc]; rfl)
      rw [← hk]
      exact findKey_none fresh it hit
  | rewrite p key l nominal halfWidth hold trigger defined found closed order =>
    obtain ⟨hm, -, -⟩ := LineTable.findEntry_some found
    refine designatesAll_writeEdit h ok _ _ ?_
      (fun it hit hne => (mem_replaceItem_iff hm (by rfl)).2 (.inr ⟨hit, hne⟩))
      fun d dir r hc => key_ne_of_closed ht hm (h p) closed hc
    intro a ha b hb hs
    rcases mem_replaceItem hb with rfl | ⟨hb, -⟩
    · exact ((key_eq_iff ht hm ha).2 hs.symm).symm
    · exact keyBySlot_index ht _ a ha b hb hs
  | clear p key l found =>
    obtain ⟨hm, -, -⟩ := LineTable.findEntry_some found
    intro q
    rw [State.writeTable_point, State.writeTable_index]
    split
    · next hq =>
      subst hq
      intro d hd
      obtain ⟨it, hit, hs, hk, hel⟩ := h q d hd
      by_cases hke : it.key = l.item.key
      · cases (ht.ordered q).eq_of_key hit hm hke
        exact ⟨_, (mem_replaceItem_iff hm (by rfl)).2 (.inl rfl), hs, hk, hel⟩
      · exact ⟨it, (mem_replaceItem_iff hm (by rfl)).2 (.inr ⟨hit, hke⟩), hs, hk, hel⟩
    · exact h q
  | retire p it listed closed =>
    exact designatesAll_writeEdit h ok _ _
      (fun a ha b hb hs => keyBySlot_index ht _ a ha b (mem_removeKey.1 hb).1 hs)
      (fun a ha hne => mem_removeKey.2 ⟨ha, hne⟩) fun d dir r hc => key_ne_of_closed ht listed (h p) closed hc
  | restart =>
    intro p
    cases p <;> exact designates_of_inactive rfl

/-! ### Every step -/

theorem designatesAll_of_sameRun (h : DesignatesAll s) (hp : ∀ p, SameRun (s.point p) (t.point p))
    (index : ∀ p, t.index p = s.index p) : DesignatesAll t := fun p => by
  rw [index]
  exact designates_sameRun (h p) (hp p)

theorem designatesAll_mediumStep (h : DesignatesAll s) (m : MediumStep s t) : DesignatesAll t :=
  designatesAll_of_sameRun h m.sameRun (index_of_table m.table)

theorem designatesAll_sampleUpdated (h : DesignatesAll s) (ht : TableOk s.table) (phases : Axes Phase) (sigok : Axes Bool)
    (refok : Bool) : DesignatesAll (s.sampleUpdated phases sigok refok) := fun p => by
  have hk : KeyBySlot (s.index p) (s.index p) := keyBySlot_index ht p
  rw [State.sampleUpdated_point, State.sampleUpdated_index]
  exact designates_positionUpdate hk
    (designates_windowMoves hk (h p) ((s.point p).takeLoss_moves (s.index p) s.cu.stale _)) _ _

theorem designatesAll_eventStep (h : DesignatesAll s) (ht : TableOk s.table) (e : EventStep s t) : DesignatesAll t := by
  rcases e.point_cases with ⟨phases, sigok, refok, m⟩ | hp
  · exact designatesAll_mediumStep (designatesAll_sampleUpdated h ht phases sigok refok) m
  · exact designatesAll_of_sameRun h hp (index_of_table e.table)

theorem designatesAll_setPoint (h : DesignatesAll s) {p : Point} {n : MeasuringPoint} (hn : Designates n (s.index p)) :
    DesignatesAll (s.setPoint p n) := fun q => by
  rw [State.setPoint_point, State.setPoint_index]
  split
  · next hq => rw [hq]; exact hn
  · exact h q

theorem designatesAll_takePoint (h : DesignatesAll s) {p : Point} {r : PointResult}
    (hr : Designates r.point (s.index p)) : DesignatesAll (s.takePoint p r) := fun q => by
  rw [State.takePoint_point, State.takePoint_index]
  split
  · next hq => rw [hq]; exact hr
  · exact h q

/-- A point that was not SCANNING has no designation, and a seek gives it one of its index. -/
theorem designates_seek_of_inactive {m : MeasuringPoint} (hc : m.cursor = .inactive) (idx : List IndexItem) :
    Designates (m.seek idx).point idx :=
  designates_seek fun d hd => by rw [hc] at hd; cases hd

theorem designatesAll_requestStep {u : State} (h : DesignatesAll s) (ok : s.PointsOk) (r : RequestStep s u) :
    DesignatesAll u := by
  have hin : ∀ p, (s.point p).state ≠ .scanning → (s.point p).cursor = .inactive := fun p => (ok p).cursor_iff.2
  cases r with
  | supplyMedium generation mask w => exact designatesAll_mediumStep h (.supply s generation mask w)
  | setPolicy hp panic stale guard hold => exact designatesAll_mediumStep h (.setPolicy s hp panic stale guard hold)
  | configurePoint p enabled coeffs mode tau width hyst lead range rest =>
    refine designatesAll_setPoint h (designates_of_eq (h p) ?_ ?_) <;>
      (unfold MeasuringPoint.configure; dsimp only; split <;> rfl)
  | startScan p first last stride order rest tracking =>
    refine designatesAll_takePoint h (designates_seek_of_inactive ?_ _)
    exact hin p (by simp [rest])
  | stopScan p active => exact designatesAll_setPoint h (designates_of_inactive (closeStopped_cursor _ _ _))
  | acknowledgeHalt p halted =>
    refine designatesAll_takePoint h (designates_seek_of_inactive ?_ _)
    exact hin p (by simp [halted])
  | clearCounters => exact designatesAll_of_sameRun h s.clearCounters_sameRun fun _ => rfl
  | _ => exact h

theorem designatesAll_commandStep (h : DesignatesAll s) (ht : TableOk s.table) (ok : s.PointsOk) (c : CommandStep s t) :
    DesignatesAll t := by
  cases c with
  | event e => exact designatesAll_eventStep h ht e
  | @answered u len r _ q => exact designatesAll_requestStep (u := u) h ok q
  | asking len j _ _ => exact h
  | port p =>
    exact designatesAll_of_sameRun h (fun q => .of_eq (p.sameBlocks.point q)) p.sameBlocks.index
  | access j _ => exact designatesAll_accessStep (t := (s.runJob j).state) h ht ok (s.runJob_step j)
  | evaluate r rest _ _ =>
    exact designatesAll_of_sameRun h (s.evaluate_sameRun s.chosenQueue r) fun p => by
      rw [State.grantEvaluator_index, State.index, State.evaluate_index]; rfl
  | place r _ => exact h
  | askNext j _ => exact h
  | dropRecord _ =>
    exact designatesAll_setPoint (s := { s with port := s.port.release }) h
      (designates_of_eq (h s.pointer.other) rfl rfl)
  | powerOn =>
    intro p
    cases p <;> exact designates_of_inactive rfl

/-- Settles O11: with the table and the points kept, the cases of a step, and for each what it does to a cursor or to its index. -/
theorem everyStepKeepsTheCursorsEligible : Obligations.EveryStepKeepsTheCursorsEligible := by
  rintro s t ⟨ht, ok, hd⟩ hstep
  refine ⟨everyStepKeepsTheLineTable s t ht hstep, everyStepKeepsThePoints s t ok hstep, ?_⟩
  rcases step_cases hstep with rfl | ⟨_, rest, _, c⟩
  · refine designatesAll_of_sameRun hd s.idle_sameRun (index_of_table ?_)
    rcases s.idle_cases with ⟨i, _, e⟩ | ⟨_, e⟩ <;> rw [e]
    rfl
  · exact designatesAll_commandStep (s := { s with pending := rest }) hd ht.1 ok c

end Sys2Proof.Proofs.Cursors

/-! The statistics of every entry, at every step, of 04_the_line_table.md and 06_pass_evaluation_and_the_table_port.md (R74, R75, R135 to
R140). -/

namespace Sys2Proof.Proofs.Statistics

open Sys2Proof.Machine

/-! ### Results -/

theorem deviation_range (x nominal : Int) : -2147483648 ≤ deviation x nominal ∧ deviation x nominal ≤ 2147483647 :=
  clampInt_range (by decide) _

theorem statsOk_empty : StatsOk { n := 0, sum := 0, extremes := none } where
  n_range := Nat.zero_le _
  none_yet _ := ⟨rfl, rfl⟩
  some_yet h := absurd h (Nat.lt_irrefl 0)

theorem resultsOk_load : ResultsOk .load where
  forward := statsOk_empty
  reverse := statsOk_empty
  miss_range := Nat.zero_le _
  reject_range := Nat.zero_le _
  total_range := Nat.zero_le _
  last_range v h := by cases h

/-- A deviation accumulated keeps the sum between `n` times the extremes (R74, R136). -/
theorem statsOk_accumulate {d : DirStats} (h : StatsOk d) {dev : Int} (hdev : -2147483648 ≤ dev ∧ dev ≤ 2147483647) :
    StatsOk (d.accumulate dev) := by
  unfold DirStats.accumulate
  split
  · next hn =>
    refine ⟨hn, fun h0 => absurd h0 (Nat.succ_ne_zero _), fun _ => ?_⟩
    rcases Nat.eq_zero_or_pos d.n with h0 | hpos
    · obtain ⟨hsum, hext⟩ := h.none_yet h0
      refine ⟨{ min := dev, max := dev }, by rw [hext], hdev.1, le_rfl, hdev.2, ?_, ?_⟩ <;>
        (simp only [h0, hsum]; omega)
    · obtain ⟨e, hext, h1, h2, h3, hlow, hhigh⟩ := h.some_yet hpos
      refine ⟨{ min := if dev < e.min then dev else e.min, max := if e.max < dev then dev else e.max }, by rw [hext],
        ?_, ?_, ?_, ?_, ?_⟩
      · dsimp only; split <;> omega
      · dsimp only; split <;> split <;> omega
      · dsimp only; split <;> omega
      · have hmin : (d.n : Int) * (if dev < e.min then dev else e.min) ≤ d.n * e.min :=
          mul_le_mul_of_nonneg_left (by split <;> omega) (Int.natCast_nonneg _)
        have hle : (if dev < e.min then dev else e.min) ≤ dev := by split <;> omega
        push_cast
        linarith
      · have hmax : (d.n : Int) * e.max ≤ d.n * (if e.max < dev then dev else e.max) :=
          mul_le_mul_of_nonneg_left (by split <;> omega) (Int.natCast_nonneg _)
        have hle : dev ≤ (if e.max < dev then dev else e.max) := by split <;> omega
        push_cast
        linarith
  · exact h

theorem resultsOk_applyMatched {r : Results} (h : ResultsOk r) (dir : Travel) {dev : Int}
    (hdev : -2147483648 ≤ dev ∧ dev ≤ 2147483647) (stale : Bool) : ResultsOk (r.applyMatched dir dev stale) := by
  cases dir with
  | forward => exact { h with forward := statsOk_accumulate h.forward hdev }
  | reverse => exact { h with reverse := statsOk_accumulate h.reverse hdev }

theorem resultsOk_setLast {r : Results} (h : ResultsOk r) {o : Outcome} (dir : Travel)
    (ho : ∀ v, o = .matched v → -2147483648 ≤ v ∧ v ≤ 2147483647) : ResultsOk (r.setLast o dir) := by
  refine { h with total_range := bump16_le _, last_range := fun v hv => ho v ?_ }
  unfold Results.setLast Results.lastDeviation at hv
  cases o <;> cases hv
  rfl

theorem resultsOk_countMiss {r : Results} (h : ResultsOk r) : ResultsOk r.countMiss :=
  { h with miss_range := bump8_le _ }

theorem resultsOk_countReject {r : Results} (h : ResultsOk r) : ResultsOk r.countReject :=
  { h with reject_range := bump8_le _ }

theorem resultsOk_applyPass {r : Results} (h : ResultsOk r) (nominal : Int) (rec1 : PassRecord) :
    ResultsOk (r.applyPass nominal rec1) := by
  unfold Results.applyPass
  split
  · next x _ =>
    refine resultsOk_setLast (resultsOk_applyMatched h _ (deviation_range x nominal) _) _ fun v hv => ?_
    cases hv
    exact deviation_range x nominal
  · exact resultsOk_setLast (resultsOk_countMiss h) _ (by simp)
  · exact resultsOk_setLast (resultsOk_countMiss h) _ (by simp)
  all_goals exact resultsOk_setLast (resultsOk_countReject h) _ (by simp)

/-! ### The slots -/

/-- The results of every entry listed. -/
def SlotResultsOk (slots : List (Nat × Slot)) : Prop := ∀ e ∈ slots, ∀ n, e.2.entry = some n → ResultsOk n.results

theorem slotResultsOk_set {slots : List (Nat × Slot)} (h : SlotResultsOk slots) {n : Nat} {v : Slot}
    (hv : ∀ e, v.entry = some e → ResultsOk e.results) : SlotResultsOk (slotSet slots n v) := by
  intro e he m hm
  rcases mem_slotSet he with ⟨rfl, _⟩ | he
  · exact hv m hm
  · exact h e he m hm

theorem slotResultsOk_get {slots : List (Nat × Slot)} (h : SlotResultsOk slots) {n : Nat} {e : Entry}
    (he : (slotGet slots n).entry = some e) : ResultsOk e.results := h _ (mem_of_entry_eq_some he) e he

theorem slotResultsOk_restart (slots : List (Nat × Slot)) : SlotResultsOk (restartSlots slots) := by
  intro e he n hn
  simp only [restartSlots, List.mem_filter, List.mem_map] at he
  obtain ⟨⟨a, _, rfl⟩, _⟩ := he
  split at hn
  · cases hn
  · next hs =>
    rw [hn] at hs
    exact absurd rfl hs

/-! ### Every step -/

variable {s t : State}

theorem statistics_accessStep {j : Job} (h : SlotResultsOk s.table.slots) (a : AccessStep s j t) :
    SlotResultsOk t.table.slots := by
  cases a with
  | none => exact h
  | insert n e defined load fresh lowest order =>
    rw [State.insertEntry, State.handEdit_table]
    refine slotResultsOk_set h ?_
    rintro _ ⟨⟩
    rw [load]
    exact resultsOk_load
  | rewrite p key l nominal halfWidth hold trigger defined found closed order =>
    rw [State.rewriteEntry, State.handEdit_table]
    refine slotResultsOk_set h ?_
    rintro _ ⟨⟩
    exact slotResultsOk_get (e := l.entry) h (LineTable.findEntry_some found).2.2
  | clear p key l found =>
    refine slotResultsOk_set h ?_
    rintro _ ⟨⟩
    exact resultsOk_load
  | retire p it listed closed =>
    rw [State.retireEntry, State.handEdit_table]
    refine slotResultsOk_set h ?_
    rintro _ ⟨⟩
  | restart => exact slotResultsOk_restart _

theorem statistics_evaluate (h : SlotResultsOk s.table.slots) (p : Point) (r : PassRecord) :
    SlotResultsOk (s.evaluate p r).table.slots := by
  rcases s.evaluate_cases p r with ⟨e, hs, e1⟩ | ⟨_, e1⟩ <;> rw [e1]
  · rw [State.applyRecord_table]
    refine slotResultsOk_set h ?_
    rintro _ ⟨⟩
    exact resultsOk_applyPass (slotResultsOk_get h (congrArg Slot.entry hs)) _ _
  · exact h

theorem statistics_commandStep (h : SlotResultsOk s.table.slots) (c : CommandStep s t) : SlotResultsOk t.table.slots := by
  cases c with
  | event e => rw [e.table]; exact h
  | @answered u len r _ q => rw [State.answered_table, Table.requestStep_table q]; exact h
  | asking len j _ _ => exact h
  | port p => rw [p.sameBlocks.table]; exact h
  | access j _ => exact statistics_accessStep (t := (s.runJob j).state) h (s.runJob_step j)
  | evaluate r rest _ _ => exact statistics_evaluate h s.chosenQueue r
  | place r _ => exact h
  | askNext j _ => exact h
  | dropRecord _ => exact h
  | powerOn =>
    intro e he
    cases he

/-- Settles O12: the cases of a step; a slot written holds no entry, one with the LOAD values, the results it had, or those with one
record applied. -/
theorem everyStepKeepsTheStatistics : Obligations.EveryStepKeepsTheStatistics := by
  intro s t h hstep
  rcases step_cases hstep with rfl | ⟨_, rest, _, c⟩
  · rcases s.idle_cases with ⟨i, _, e⟩ | ⟨_, e⟩ <;> rw [e] <;> exact h
  · exact statistics_commandStep (s := { s with pending := rest }) h c

end Sys2Proof.Proofs.Statistics

/-! The request port and the table port, at every step, of 06_pass_evaluation_and_the_table_port.md and 09_the_request_port.md (R130,
R131, R133, R141, R180, R183, R185, R188, R189, R191). -/

namespace Sys2Proof.Machine

/-! ### What the window logic raises (R64, R111, R125) -/

/-- The kinds a point raises. -/
def PointEvents (events : List EventKind) : Prop :=
  ∀ k ∈ events, k = .pointHalted ∨ k = .pointSuspended ∨ k = .scanEnd

theorem pointEvents_nil : PointEvents [] := by simp [PointEvents]

theorem PointEvents.append {a b : List EventKind} (ha : PointEvents a) (hb : PointEvents b) : PointEvents (a ++ b) :=
  fun k hk => (List.mem_append.1 hk).elim (ha k) (hb k)

theorem PointEvents.not_mem {events : List EventKind} (h : PointEvents events) : EventKind.responseReady ∉ events :=
  fun hk => by rcases h _ hk with e | e | e <;> cases e

section
variable (m : MeasuringPoint) (idx : List IndexItem) (stale : Bool)

theorem MeasuringPoint.seek_pointEvents : PointEvents (m.seek idx).events := by
  rcases m.seek_events idx with e | e <;> simp [e, PointEvents]

theorem MeasuringPoint.suspend_pointEvents (cause : SuspendCause) : PointEvents (m.suspend stale cause).events := by
  simp [MeasuringPoint.suspend, PointEvents]

theorem MeasuringPoint.closeScanning_pointEvents (cause : CloseCause) (r : OpenPass) :
    PointEvents (m.closeScanning idx stale cause r).events := by
  rcases m.closeScanning_cases idx stale cause r with ⟨_, e⟩ | ⟨_, e⟩ <;> rw [e]
  · exact MeasuringPoint.seek_pointEvents _ idx
  · simp [PointEvents]

theorem MeasuringPoint.turnSeek_pointEvents (changed : Bool) : PointEvents (m.turnSeek idx changed).events := by
  unfold MeasuringPoint.turnSeek
  split
  · split_ifs <;> [exact m.seek_pointEvents idx; exact pointEvents_nil]
  · split_ifs <;> [exact m.seek_pointEvents idx; exact pointEvents_nil]
  all_goals exact pointEvents_nil

theorem MeasuringPoint.openingTest_pointEvents : PointEvents (m.openingTest idx stale).events := by
  unfold MeasuringPoint.openingTest
  split
  · split_ifs
    · exact pointEvents_nil
    · exact MeasuringPoint.closeScanning_pointEvents _ idx stale _ _
    · exact pointEvents_nil
  all_goals exact pointEvents_nil

theorem MeasuringPoint.closingTest_pointEvents : PointEvents (m.closingTest idx stale).events := by
  unfold MeasuringPoint.closingTest
  split
  · split_ifs
    · exact m.closeScanning_pointEvents idx stale _ _
    · exact m.closeScanning_pointEvents idx stale _ _
    · exact pointEvents_nil
  all_goals exact pointEvents_nil

theorem MeasuringPoint.positionUpdate_pointEvents (chs : Axes Channel) :
    PointEvents (m.positionUpdate chs idx stale).events := by
  unfold MeasuringPoint.positionUpdate MeasuringPoint.windowUpdate
  dsimp only
  split
  · split
    · split_ifs
      · exact MeasuringPoint.suspend_pointEvents _ stale _
      · exact MeasuringPoint.closingTest_pointEvents _ idx stale
      · exact (MeasuringPoint.turnSeek_pointEvents _ idx _).append (MeasuringPoint.openingTest_pointEvents _ idx stale)
    · split_ifs <;> [exact MeasuringPoint.suspend_pointEvents _ stale _; exact pointEvents_nil]
    all_goals exact pointEvents_nil
  · exact pointEvents_nil

theorem MeasuringPoint.takeLoss_pointEvents (lost : Axis → Bool) : PointEvents (m.takeLoss stale lost).events := by
  rcases m.takeLoss_cases stale lost with ⟨_, _, e⟩ | ⟨_, e⟩ <;> rw [e]
  · exact m.suspend_pointEvents stale _
  · exact pointEvents_nil

theorem MeasuringPoint.handEdit_pointEvents (key : Nat) (b a : Option IndexItem) :
    PointEvents (m.handEdit idx key b a).events := by
  rcases m.handEdit_cases idx key b a with ⟨_, e⟩ | ⟨_, e⟩ <;> rw [e]
  · exact m.seek_pointEvents idx
  · exact pointEvents_nil

end

end Sys2Proof.Machine

namespace Sys2Proof.Proofs.Ports

open Sys2Proof.Machine

/-! ### Queues: a record leaves its queue by an evaluation or a reset alone -/

/-- Whoever holds a record holds one afterwards. -/
def KeepsRecord (m n : MeasuringPoint) : Prop := m.queue ≠ [] → n.queue ≠ []

theorem keepsRecord_of_eq {m n : MeasuringPoint} (h : n.queue = m.queue) : KeepsRecord m n := fun hq => h ▸ hq

theorem keepsRecord_seek {m n : MeasuringPoint} (h : KeepsRecord m n) (idx : List IndexItem) :
    KeepsRecord m (n.seek idx).point := by
  obtain ⟨c, g, k, e⟩ := n.seek_eq idx
  rw [e]
  exact h

theorem keepsRecord_closeStopped (m : MeasuringPoint) (stale : Bool) (cause : CloseCause) :
    KeepsRecord m (m.closeStopped stale cause) := by
  obtain ⟨T, Q, C, e, _, _, _, hq⟩ := m.closeStopped_frame stale cause
  rw [e]
  exact hq

theorem keepsRecord_windowMove {idx : List IndexItem} {stale : Bool} {m n : MeasuringPoint} (h : WindowMove idx stale m n) :
    KeepsRecord m n := by
  cases h with
  | fire d dir t armed => exact keepsRecord_of_eq rfl
  | seek => exact keepsRecord_seek (keepsRecord_of_eq rfl) idx
  | opens d dir t armed => exact keepsRecord_of_eq rfl
  | closes d dir r cause opened =>
    rcases m.closeScanning_cases idx stale cause r with ⟨_, e⟩ | ⟨_, e⟩ <;> rw [e]
    · exact keepsRecord_seek (fun _ => by simp) idx
    · exact keepsRecord_of_eq rfl
  | suspend cause => exact keepsRecord_closeStopped m stale .suspended

theorem keepsRecord_windowMoves {idx : List IndexItem} {stale : Bool} {m n : MeasuringPoint}
    (h : WindowMoves idx stale m n) : KeepsRecord m n := by
  induction h with
  | refl => exact id
  | tail _ move ih => exact fun hq => keepsRecord_windowMove move (ih hq)

theorem keepsRecord_positionUpdate (m : MeasuringPoint) (chs : Axes Channel) (idx : List IndexItem) (stale : Bool) :
    KeepsRecord m (m.positionUpdate chs idx stale).point := by
  rcases m.positionUpdate_moves idx stale chs with e | e | ⟨_, moves⟩
  · exact keepsRecord_of_eq (by rw [e])
  · exact keepsRecord_of_eq (by rw [e]; rfl)
  · have hq := keepsRecord_windowMoves moves
    exact hq

variable {s t : State}

/-! ### Steps outside the ports -/

/-- What the ports' agreement reads of the rest of the part. -/
structure SamePorts (s t : State) : Prop where
  req : t.req = s.req
  port : t.port = s.port
  pointer : t.pointer = s.pointer
  response : t.notices.flags.get .responseReady = s.notices.flags.get .responseReady
  records : ∀ p, KeepsRecord (s.point p) (t.point p)

theorem portsInv_of_samePorts (h : s.PortsInv) (g : SamePorts s t) : t.PortsInv where
  link := by rw [g.req]; exact h.link
  transfer := by rw [g.req]; exact h.transfer
  counts := by rw [g.req]; exact h.counts
  response_ready := by rw [g.req, g.response]; exact h.response_ready
  executor_access := by rw [g.req, g.port]; exact h.executor_access
  evaluator_record := by
    rw [g.port, g.pointer]
    exact fun ho => g.records _ (h.evaluator_record ho)
  wait_range := by rw [g.port]; exact h.wait_range
  wait_requesting := by
    rw [g.port, State.executorRequests, g.req]
    exact h.wait_requesting
  left_range := by rw [g.port]; exact h.left_range

theorem samePorts_mediumStep (m : MediumStep s t) : SamePorts s t :=
  ⟨m.req, m.port, m.pointer, m.response, fun p => keepsRecord_of_eq (m.sameRun p).queue⟩

theorem samePorts_setPoint {p : Point} {n : MeasuringPoint} (h : SameRun (s.point p) n) : SamePorts s (s.setPoint p n) :=
  ⟨rfl, rfl, rfl, rfl, fun q => keepsRecord_of_eq (SameRun.setPoint s h q).queue⟩

theorem samePorts_sampleUpdated (s : State) (phases : Axes Phase) (sigok : Axes Bool) (refok : Bool) :
    SamePorts s (s.sampleUpdated phases sigok refok) where
  req := by simp
  port := by simp
  pointer := by simp
  response := by
    refine Bool.eq_iff_iff.2 ((s.sampleUpdated_flag phases sigok refok .responseReady).trans ⟨?_, .inl⟩)
    rintro (h | ⟨h, _⟩ | ⟨h, _⟩ | ⟨p, h | h⟩)
    · exact h
    · cases h
    · cases h
    · exact absurd h (MeasuringPoint.takeLoss_pointEvents _ _ _).not_mem
    · exact absurd h (MeasuringPoint.positionUpdate_pointEvents _ _ _ _).not_mem
  records p := by
    rw [State.sampleUpdated_point]
    exact fun hq => keepsRecord_positionUpdate _ _ _ _
      (keepsRecord_windowMoves ((s.point p).takeLoss_moves (s.index p) s.cu.stale _) hq)

theorem portsInv_eventStep (h : s.PortsInv) (e : EventStep s t) : t.PortsInv := by
  cases e with
  | none => exact h
  | phaseSample phases sigok refok =>
    exact portsInv_of_samePorts (portsInv_of_samePorts h (samePorts_sampleUpdated s phases sigok refok))
      (samePorts_mediumStep (.examine _))
  | leadingEdge p => exact portsInv_of_samePorts h (samePorts_setPoint (.leadingEdge _ _))
  | trailingEdge p active => exact portsInv_of_samePorts h (samePorts_setPoint (.trailingEdge _ _ _))
  | completion p => exact portsInv_of_samePorts h (samePorts_setPoint (.completePulse _))
  | triggerEnd p => exact portsInv_of_samePorts h (samePorts_setPoint (.endTrigger _))
  | tick => exact portsInv_of_samePorts h (samePorts_mediumStep (.tick s))
  | expiry => exact portsInv_of_samePorts h (samePorts_mediumStep (.expire s))

/-- A CLKIN period and an idle step's queue. -/
theorem portsInv_idle (h : s.PortsInv) : s.idle.PortsInv := by
  rcases s.idle_cases with ⟨i, _, e⟩ | ⟨_, e⟩ <;> rw [e]
  · exact { h with }
  · exact
      { link := h.link, transfer := h.transfer, counts := h.counts, response_ready := h.response_ready
        executor_access := h.executor_access, wait_range := h.wait_range, wait_requesting := h.wait_requesting
        evaluator_record := fun ho => by
          show (s.clkPeriod.point s.pointer.other).queue ≠ []
          rw [State.clkPeriod_point, (SameRun.clkPeriod _).queue]
          exact h.evaluator_record ho
        left_range := le_trans (Nat.sub_le _ _) h.left_range }

/-! ### Requests -/

theorem executor_of_idle (h : LinkOk s.req) (hi : s.req.link = .idle) : s.req.slot = none ∧ s.req.executor = .free := by
  unfold LinkOk at h
  rw [hi] at h
  exact h

theorem waitCount_eq_zero (h : s.PortsInv) (hx : s.executorRequests = false) : s.port.waitCount = 0 := by
  by_contra hw
  rw [h.wait_requesting hw] at hx
  cases hx

theorem occupant_ne_executor (h : s.PortsInv) (hx : s.req.executor.isAccessing = false) : s.port.occupant ≠ .executor :=
  fun ho => by
    rw [h.executor_access.1 ho] at hx
    cases hx

/-- An accepted request leaves the table port and the queues. -/
structure RequestFrame (s u : State) : Prop where
  port : u.port = s.port
  pointer : u.pointer = s.pointer
  counts : u.req.discardedCount ≤ s.req.discardedCount ∧ u.req.malformedCount ≤ s.req.malformedCount
  records : ∀ p, KeepsRecord (s.point p) (u.point p)

theorem requestFrame_of_samePorts {u : State} (h : SamePorts s u) : RequestFrame s u :=
  ⟨h.port, h.pointer, by rw [h.req]; exact ⟨le_rfl, le_rfl⟩, h.records⟩

theorem requestFrame_setPoint {p : Point} {n : MeasuringPoint} (h : KeepsRecord (s.point p) n) :
    RequestFrame s (s.setPoint p n) := by
  refine ⟨rfl, rfl, ⟨le_rfl, le_rfl⟩, fun q => ?_⟩
  rw [State.setPoint_point]
  split
  · next hq => rw [hq]; exact h
  · exact id

theorem requestFrame_takePoint {p : Point} {r : PointResult} (h : KeepsRecord (s.point p) r.point) :
    RequestFrame s (s.takePoint p r) := by
  refine ⟨by simp, by simp, by simp, fun q => ?_⟩
  rw [State.takePoint_point]
  split
  · next hq => rw [hq]; exact h
  · exact id

theorem requestFrame_requestStep {u : State} (r : RequestStep s u) : RequestFrame s u := by
  cases r with
  | supplyMedium generation mask w => exact requestFrame_of_samePorts (samePorts_mediumStep (.supply s generation mask w))
  | setPolicy hp panic stale guard hold =>
    exact requestFrame_of_samePorts (samePorts_mediumStep (.setPolicy s hp panic stale guard hold))
  | configurePoint p enabled coeffs mode tau width hyst lead range rest =>
    refine requestFrame_setPoint (keepsRecord_of_eq ?_)
    unfold MeasuringPoint.configure
    dsimp only
    split <;> rfl
  | startScan p first last stride order rest tracking =>
    refine requestFrame_takePoint ?_
    unfold MeasuringPoint.startScan
    refine keepsRecord_seek ?_ _
    exact fun hq => hq
  | stopScan p active => exact requestFrame_setPoint (keepsRecord_closeStopped _ _ .stopScan)
  | acknowledgeHalt p halted =>
    refine requestFrame_takePoint ?_
    refine keepsRecord_seek ?_ _
    exact fun hq => hq
  | clearCounters =>
    exact ⟨rfl, rfl, ⟨Nat.zero_le _, Nat.zero_le _⟩, fun p => keepsRecord_of_eq (s.clearCounters_sameRun p).queue⟩
  | _ => exact ⟨rfl, rfl, ⟨le_rfl, le_rfl⟩, fun _ => id⟩

/-- An answered request: the response waits, RESPONSE_READY is raised, and nobody waits for the table port (R180, R189). -/
theorem portsInv_answered {u : State} (h : s.PortsInv) (hi : s.req.link = .idle) (f : RequestFrame s u) (len : Nat)
    (r : Response) : (u.answered len r).PortsInv := by
  have hx := (executor_of_idle h.link hi).2
  have hw := waitCount_eq_zero h (by simp [State.executorRequests, hx])
  have ho := occupant_ne_executor h (by simp [hx, Executor.isAccessing])
  exact
    { link := ⟨rfl, rfl⟩
      transfer := fun _ _ _ ht => by cases ht
      counts := ⟨f.counts.1.trans h.counts.1, f.counts.2.trans h.counts.2⟩
      response_ready := iff_of_true rfl rfl
      executor_access := iff_of_false (by show u.port.occupant ≠ _; rw [f.port]; exact ho) Bool.false_ne_true
      evaluator_record := by
        show u.port.occupant = _ → (u.point u.pointer.other).queue ≠ []
        rw [f.port, f.pointer]
        exact fun he => f.records _ (h.evaluator_record he)
      wait_range := by show u.port.waitCount ≤ _; rw [f.port]; exact h.wait_range
      wait_requesting := fun hne => absurd (by show u.port.waitCount = 0; rw [f.port]; exact hw) hne
      left_range := by show u.port.left ≤ _; rw [f.port]; exact h.left_range }

theorem response_eq_false (h : s.PortsInv) (hl : s.req.link ≠ .ready) : s.notices.flags.get .responseReady = false :=
  Bool.eq_false_iff.2 fun hr => hl (h.response_ready.1 hr)

theorem portsInv_asking (h : s.PortsInv) (hi : s.req.link = .idle) (len : Nat) (j : Job) :
    (s.asking len j).PortsInv := by
  obtain ⟨hs, hx⟩ := executor_of_idle h.link hi
  have ho := occupant_ne_executor h (by simp [hx, Executor.isAccessing])
  exact
    { link := ⟨hs, by simp [State.asking]⟩
      transfer := fun _ _ _ ht => by cases ht
      counts := h.counts
      response_ready := iff_of_false (by
        show ¬s.notices.flags.get .responseReady = true
        rw [response_eq_false h (by rw [hi]; decide)]
        decide) (by simp [State.asking])
      executor_access := iff_of_false ho (by simp [State.asking, Executor.isAccessing])
      evaluator_record := h.evaluator_record
      wait_range := h.wait_range
      wait_requesting := fun _ => rfl
      left_range := h.left_range }

/-! ### Transactions -/

/-- A transaction that leaves link, slot, executor and notices alone. -/
theorem portsInv_setReq (h : s.PortsInv) {q : RequestPort} (link : q.link = s.req.link) (slot : q.slot = s.req.slot)
    (executor : q.executor = s.req.executor) (transfer : TransferOk q)
    (counts : q.discardedCount ≤ 65535 ∧ q.malformedCount ≤ 65535) : State.PortsInv { s with req := q } where
  link := by
    have hl := h.link
    unfold LinkOk at hl ⊢
    rw [link, slot, executor]
    exact hl
  transfer := transfer
  counts := counts
  response_ready := by rw [show ({ s with req := q } : State).req.link = s.req.link from link]; exact h.response_ready
  executor_access := by
    rw [show ({ s with req := q } : State).req.executor = s.req.executor from executor]; exact h.executor_access
  evaluator_record := h.evaluator_record
  wait_range := h.wait_range
  wait_requesting := by
    rw [State.executorRequests, show ({ s with req := q } : State).req.executor = s.req.executor from executor]
    exact h.wait_requesting
  left_range := h.left_range

theorem transferOk_of_high {q : RequestPort} (h : q.transfer = .high) : TransferOk q := fun _ _ _ ht => by
  rw [h] at ht
  cases ht

theorem statusByte_range (q : RequestPort) : q.statusByte.toNat % 4 ≠ 3 ∧ q.statusByte.toNat < 8 := by
  unfold RequestPort.statusByte
  cases q.link <;> cases q.discarded <;> decide

theorem portsInv_beginTransfer (h : s.PortsInv) : s.beginTransfer.PortsInv := by
  unfold State.beginTransfer
  split
  · refine portsInv_setReq h rfl rfl rfl (fun st f l ht => ?_) h.counts
    cases ht
    exact ⟨(statusByte_range _).1, (statusByte_range _).2, fun r hr => by cases hr⟩
  · exact h
  · exact h

theorem recognition_delivers {q : RequestPort} {r : Response} (h : q.recognition = .delivers r) :
    q.link = .ready ∧ q.slot = some r := by
  unfold RequestPort.recognition at h
  split at h
  · next hl hs => cases h; exact ⟨hl, hs⟩
  all_goals cases h

theorem portsInv_decideFetch (h : s.PortsInv) : s.decideFetch.PortsInv := by
  unfold State.decideFetch
  split
  · next st later ht =>
    refine portsInv_setReq h rfl rfl rfl (fun st2 f l ht2 => ?_) h.counts
    cases ht2
    obtain ⟨h1, h2, -⟩ := h.transfer _ _ _ ht
    exact ⟨h1, h2, fun r hr => recognition_delivers hr⟩
  all_goals exact h

theorem portsInv_runOn (h : s.PortsInv) (sdi : List Bool) : (s.runOn sdi).PortsInv := by
  unfold State.runOn
  split
  · next st f later ht =>
    refine portsInv_setReq h rfl rfl rfl (fun st2 f2 l ht2 => ?_) h.counts
    cases ht2
    exact h.transfer _ _ _ ht
  all_goals exact h

/-- Whatever a FETCH delivers is the response that waits (R191). -/
theorem recognized_delivers (h : TransferOk s.req) {r : Response} (hr : s.req.recognized = .delivers r) :
    s.req.link = .ready ∧ s.req.slot = some r := by
  unfold RequestPort.recognized at hr
  split at hr
  · cases hr
  · next st r2 later ht =>
    cases hr
    exact (h _ _ _ ht).2.2 r rfl
  all_goals exact recognition_delivers hr

theorem portsInv_finishFetch (h : s.PortsInv) (n : Nat) : (s.finishFetch n).PortsInv := by
  rcases s.finishFetch_cases n with ⟨r, hr, _, e⟩ | ⟨_, e⟩ <;> rw [e]
  · obtain ⟨hl, -⟩ := recognized_delivers h.transfer hr
    have hx : s.req.executor = .free := by
      have hlink := h.link
      unfold LinkOk at hlink
      rw [hl] at hlink
      exact hlink.2
    exact
      { link := ⟨rfl, hx⟩
        transfer := transferOk_of_high rfl
        counts := h.counts
        response_ready := iff_of_false (by simp [State.emptySlot]) (by simp [State.emptySlot])
        executor_access := h.executor_access
        evaluator_record := h.evaluator_record
        wait_range := h.wait_range
        wait_requesting := h.wait_requesting
        left_range := h.left_range }
  · exact portsInv_setReq h rfl rfl rfl (transferOk_of_high rfl) h.counts

theorem portsInv_portStep (h : s.PortsInv) (p : PortStep s t) : t.PortsInv := by
  cases p with
  | endIgnored => exact portsInv_setReq h rfl rfl rfl (transferOk_of_high rfl) h.counts
  | statusRead n => exact portsInv_setReq h rfl rfl rfl (transferOk_of_high rfl) h.counts
  | discard n => exact portsInv_setReq h rfl rfl rfl (transferOk_of_high rfl) ⟨bump16_le _, h.counts.2⟩
  | discardMalformed n => exact portsInv_setReq h rfl rfl rfl (transferOk_of_high rfl) ⟨h.counts.1, bump16_le _⟩
  | fall => exact portsInv_beginTransfer h
  | lByte => exact portsInv_decideFetch h
  | runOn sdi => exact portsInv_runOn h sdi
  | rise n _ => exact portsInv_finishFetch h n

/-! ### Accesses -/

theorem link_of_executor (h : LinkOk s.req) (hx : s.req.executor ≠ .free) : s.req.link = .executing ∧ s.req.slot = none := by
  unfold LinkOk at h
  split at h
  · exact absurd h.2 hx
  · next hl => exact ⟨hl, h.1⟩
  · exact absurd h.2 hx

/-- What an access leaves of the request port and of RESPONSE_READY. -/
structure AccessPorts (s t : State) : Prop where
  link : t.req.link = s.req.link
  slot : t.req.slot = s.req.slot
  transfer : t.req.transfer = s.req.transfer
  counts : t.req.discardedCount ≤ s.req.discardedCount ∧ t.req.malformedCount ≤ s.req.malformedCount
  response : t.notices.flags.get .responseReady = true → s.notices.flags.get .responseReady = true

theorem accessPorts_handEdit {u : State} (h : AccessPorts s u) (p : Point) (key : Nat) (b a : Option IndexItem) :
    AccessPorts s (u.handEdit p key b a) where
  link := by rw [State.handEdit_req]; exact h.link
  slot := by rw [State.handEdit_req]; exact h.slot
  transfer := by rw [State.handEdit_req]; exact h.transfer
  counts := by rw [State.handEdit_req]; exact h.counts
  response := by
    rw [State.handEdit, State.takePoint_flag,
      decide_eq_false (MeasuringPoint.handEdit_pointEvents (u.point p) (u.index p) key b a).not_mem, Bool.or_false]
    exact h.response

theorem accessPorts_accessStep {j : Job} (a : AccessStep s j t) : AccessPorts s t := by
  have hwrite : ∀ (p : Point) (n : Nat) (v : Slot) (idx : List IndexItem), AccessPorts s (s.writeTable p n v idx) :=
    fun _ _ _ _ => ⟨rfl, rfl, rfl, ⟨le_rfl, le_rfl⟩, id⟩
  cases a with
  | none => exact ⟨rfl, rfl, rfl, ⟨le_rfl, le_rfl⟩, id⟩
  | insert n e => exact accessPorts_handEdit (hwrite _ _ _ _) _ _ _ _
  | rewrite p key l => exact accessPorts_handEdit (hwrite _ _ _ _) _ _ _ _
  | clear p key l => exact hwrite _ _ _ _
  | retire p it => exact accessPorts_handEdit (hwrite _ _ _ _) _ _ _ _
  | restart => exact ⟨rfl, rfl, rfl, ⟨Nat.zero_le _, Nat.zero_le _⟩, fun hr => by cases hr⟩

theorem portsInv_access {j : Job} (h : s.PortsInv) (granted : s.Grants j) : (s.runJob j).grant.PortsInv := by
  have a := accessPorts_accessStep (s.runJob_step j)
  obtain ⟨hl, hs⟩ := link_of_executor h.link (by rw [granted.1]; simp)
  have hl' : (s.runJob j).state.req.link = .executing := a.link.trans hl
  exact
    { link := by
        unfold LinkOk
        rw [show (s.runJob j).grant.req.link = .executing from hl']
        exact ⟨a.slot.trans hs, by simp [AccessResult.grant]⟩
      transfer := fun st f l ht => by
        obtain ⟨h1, h2, h3⟩ := h.transfer st f l (a.transfer.symm.trans ht)
        exact ⟨h1, h2, fun r hr => ⟨a.link.trans (h3 r hr).1, a.slot.trans (h3 r hr).2⟩⟩
      counts := ⟨a.counts.1.trans h.counts.1, a.counts.2.trans h.counts.2⟩
      response_ready := iff_of_false (fun hr => absurd (h.response_ready.1 (a.response hr)) (by simp [hl]))
        (by rw [show (s.runJob j).grant.req.link = .executing from hl']; decide)
      executor_access := iff_of_true rfl rfl
      evaluator_record := fun ho => by cases ho
      wait_range := Nat.zero_le _
      wait_requesting := fun hw => absurd rfl hw
      left_range := le_rfl }

theorem evaluatorGranted_iff (s : State) :
    s.evaluatorGranted = true ↔ s.port.occupant = .free ∧ ((s.point .mp0).queue ≠ [] ∨ (s.point .mp1).queue ≠ []) ∧
      (s.executorRequests = false ∨ s.port.waitCount < 4) := by
  simp only [State.evaluatorGranted, State.evaluatorRequests, Bool.and_eq_true, Bool.or_eq_true, Bool.not_eq_true',
    decide_eq_true_eq, List.isEmpty_eq_false_iff, State.point_mp0, State.point_mp1]
  constructor
  · rintro ⟨⟨ho, hr, _⟩, hw⟩
    exact ⟨ho, hr, hw⟩
  · rintro ⟨ho, hr, hw⟩
    exact ⟨⟨ho, hr, by rw [ho]; decide⟩, hw⟩

theorem portsInv_evaluate (h : s.PortsInv) {r : PassRecord} {rest : List PassRecord} (granted : s.evaluatorGranted = true)
    (oldest : (s.point s.chosenQueue).queue = r :: rest) :
    ((s.evaluate s.chosenQueue r).grantEvaluator s.chosenQueue).PortsInv := by
  obtain ⟨ho, -, hw⟩ := (evaluatorGranted_iff s).1 granted
  have hreq : (s.evaluate s.chosenQueue r).req = s.req := s.evaluate_req r _
  have hport : (s.evaluate s.chosenQueue r).port = s.port := s.evaluate_port r _
  have hflag : (s.evaluate s.chosenQueue r).notices.flags.get .responseReady = s.notices.flags.get .responseReady := by
    rcases s.evaluate_cases s.chosenQueue r with ⟨e, _, e1⟩ | ⟨_, e1⟩ <;> rw [e1]
    · simp
    · rfl
  have hq : ((s.evaluate s.chosenQueue r).point s.chosenQueue).queue ≠ [] := by
    rw [(s.evaluate_sameRun s.chosenQueue r s.chosenQueue).queue, oldest]
    simp
  have hx : (s.evaluate s.chosenQueue r).executorRequests = s.executorRequests := by
    unfold State.executorRequests; rw [hreq]
  have hacc : ¬s.req.executor.isAccessing = true := fun hacc => by
    have := h.executor_access.2 hacc
    rw [ho] at this
    cases this
  exact
    { link := by rw [State.grantEvaluator_req, hreq]; exact h.link
      transfer := by rw [State.grantEvaluator_req, hreq]; exact h.transfer
      counts := by rw [State.grantEvaluator_req, hreq]; exact h.counts
      response_ready := by rw [State.grantEvaluator_req, State.grantEvaluator_notices, hreq, hflag]; exact h.response_ready
      executor_access := by
        rw [State.grantEvaluator_req, hreq]
        exact iff_of_false (by simp [State.grantEvaluator]) hacc
      evaluator_record := fun _ => by
        rw [State.grantEvaluator_pointer, State.grantEvaluator_point]
        cases hc : s.chosenQueue <;> (rw [hc] at hq; exact hq)
      wait_range := by
        have := h.wait_range
        show (if _ then _ else _) ≤ _
        rw [hx, hport]
        split
        · next hr => rcases hw with hw | hw <;> [(rw [hw] at hr; cases hr); exact hw]
        · exact this
      wait_requesting := by
        show (if _ then _ else _) ≠ 0 → (s.evaluate s.chosenQueue r).executorRequests = true
        rw [hx, hport]
        split
        · next hr => exact fun _ => hr
        · exact h.wait_requesting
      left_range := le_rfl }

/-! ### Completions and reset -/

theorem waitCount_of_accessing (h : s.PortsInv) {a : AfterAccess} (done : s.req.executor = .accessing a) :
    s.port.waitCount = 0 := waitCount_eq_zero h (by simp [State.executorRequests, done])

theorem portsInv_place (h : s.PortsInv) {r : Response} (done : s.req.executor = .accessing (.answer r)) :
    ({ s with port := s.port.release }.place r).PortsInv :=
  { link := ⟨rfl, rfl⟩
    transfer := fun st f l ht => by
      obtain ⟨h1, h2, h3⟩ := h.transfer st f l ht
      refine ⟨h1, h2, fun r2 hr => ?_⟩
      have hl := (h3 r2 hr).1
      rw [(link_of_executor h.link (by rw [done]; simp)).1] at hl
      cases hl
    counts := h.counts
    response_ready := iff_of_true (by simp [State.place]) rfl
    executor_access := iff_of_false (by simp [State.place, TablePort.release]) (by simp [State.place, Executor.isAccessing])
    evaluator_record := fun ho => by cases ho
    wait_range := h.wait_range
    wait_requesting := fun hw => absurd (waitCount_of_accessing h done) hw
    left_range := Nat.zero_le _ }

theorem portsInv_askNext (h : s.PortsInv) {j : Job} (done : s.req.executor = .accessing (.ask j)) :
    State.PortsInv { s with port := s.port.release, req := { s.req with executor := .waiting j } } := by
  obtain ⟨hl, hs⟩ := link_of_executor h.link (by rw [done]; simp)
  exact
    { link := by
        unfold LinkOk
        simp only [hl]
        exact ⟨hs, by simp⟩
      transfer := h.transfer
      counts := h.counts
      response_ready := h.response_ready
      executor_access := iff_of_false (by simp [TablePort.release]) (by simp [Executor.isAccessing])
      evaluator_record := fun ho => by cases ho
      wait_range := h.wait_range
      wait_requesting := fun _ => rfl
      left_range := Nat.zero_le _ }

theorem portsInv_dropRecord (h : s.PortsInv) (occupied : s.port.occupant = .evaluator) (n : MeasuringPoint) (p : Point) :
    ({ s with port := s.port.release }.setPoint p n).PortsInv :=
  { link := h.link, transfer := h.transfer, counts := h.counts, response_ready := h.response_ready
    executor_access := iff_of_false (by simp [TablePort.release]) fun hacc => by
      have := h.executor_access.2 hacc
      rw [occupied] at this
      cases this
    evaluator_record := fun ho => by cases ho
    wait_range := h.wait_range
    wait_requesting := h.wait_requesting
    left_range := Nat.zero_le _ }

/-- The ports free, the link IDLE, and no transaction taken. -/
theorem portsInv_fresh {s : State} (port : s.port = State.reset.port) (flags : s.notices = State.reset.notices)
    (req : s.req = { State.reset.req with transfer := s.req.transfer, ignoredCount := s.req.ignoredCount })
    (transfer : ∀ st f l, s.req.transfer ≠ .low st f l) : s.PortsInv where
  link := by rw [req]; exact ⟨rfl, rfl⟩
  transfer := fun st f l ht => absurd ht (transfer st f l)
  counts := by rw [req]; exact ⟨Nat.zero_le _, Nat.zero_le _⟩
  response_ready := by rw [req, flags]; exact iff_of_false (by decide) (show LinkState.idle ≠ .ready by decide)
  executor_access := by rw [req, port]; exact iff_of_false (by decide) (show ¬false = true by decide)
  evaluator_record := by rw [port]; exact fun ho => by cases ho
  wait_range := by rw [port]; decide
  wait_requesting := by rw [port]; exact fun hw => absurd rfl hw
  left_range := by rw [port]; decide

theorem portsInv_powerOn (s : State) : s.powerOn.PortsInv := by
  refine portsInv_fresh rfl rfl rfl fun st f l ht => ?_
  have ht' : s.req.transfer.powerOn = .low st f l := ht
  cases hq : s.req.transfer <;> simp [hq, Transfer.powerOn] at ht'

theorem portsInv_commandStep (h : s.PortsInv) (c : CommandStep s t) : t.PortsInv := by
  cases c with
  | event e => exact portsInv_eventStep h e
  | answered len r idle q => exact portsInv_answered h idle.1 (requestFrame_requestStep q) len r
  | asking len j idle _ => exact portsInv_asking h idle.1 len j
  | port p => exact portsInv_portStep h p
  | access j granted => exact portsInv_access h granted
  | evaluate r rest granted oldest => exact portsInv_evaluate h granted oldest
  | place r done => exact portsInv_place h done
  | askNext j done => exact portsInv_askNext h done
  | dropRecord occupied => exact portsInv_dropRecord h occupied _ _
  | powerOn => exact portsInv_powerOn s

/-- Settles O13: the cases of a step. Outside the ports no step touches what they agree on; a request finds the link IDLE, an access the
executor waiting, a completion the executor inside its access. -/
theorem everyStepKeepsThePorts : Obligations.EveryStepKeepsThePorts := by
  intro s t h hstep
  rcases step_cases hstep with rfl | ⟨_, rest, _, c⟩
  · exact portsInv_idle h
  · exact portsInv_commandStep (s := { s with pending := rest }) { h with } c

end Sys2Proof.Proofs.Ports

/-! The machine as a whole: the queue, the idle step, the arbiter, the completions of the accesses, and the values after power-on
(R25, R42, R69, R98, R129 to R133, R141, R142, R151, R172, R181, R189, R199). -/

namespace Sys2Proof.Proofs.Arbiter

open Sys2Proof.Machine Sys2Proof.Proofs.Ports

/-- Settles O1: it is how `step` is defined. -/
theorem stepRunsTheFrontCommand : Obligations.StepRunsTheFrontCommand := fun _ _ _ => rfl

/-! ### Who requests and who is granted (R131, R142) -/

variable {s : State}

theorem executorRequests_of {j : Job} (h : s.req.executor = .waiting j) : s.executorRequests = true := by
  simp [State.executorRequests, h]

theorem executorRequests_eq_false_iff (s : State) : s.executorRequests = false ↔ ∀ j, s.req.executor ≠ .waiting j := by
  unfold State.executorRequests
  cases s.req.executor <;> simp

theorem executorGranted_iff (s : State) :
    s.executorGranted = true ↔ s.port.occupant = .free ∧ s.executorRequests = true ∧
      (¬((s.point .mp0).queue ≠ [] ∨ (s.point .mp1).queue ≠ []) ∨ 4 ≤ s.port.waitCount) := by
  simp only [State.executorGranted, State.evaluatorRequests, Bool.and_eq_true, Bool.or_eq_true, Bool.not_eq_true',
    decide_eq_true_eq, Bool.and_eq_false_iff, Bool.or_eq_false_iff, Bool.not_eq_false', List.isEmpty_iff,
    decide_eq_false_iff_not, State.point_mp0, State.point_mp1, not_or, not_not, ne_eq]
  constructor
  · rintro ⟨⟨ho, hx⟩, hw⟩
    refine ⟨ho, hx, hw.imp_left fun hq => hq.resolve_right ?_⟩
    simp [ho]
  · rintro ⟨ho, hx, hw⟩
    exact ⟨⟨ho, hx⟩, hw.imp_left .inl⟩

/-- A waiting executor is granted exactly when the evaluator is not, once the port is free. -/
theorem evaluatorGranted_eq_false {j : Job} (hx : s.req.executor = .waiting j)
    (hw : ¬((s.point .mp0).queue ≠ [] ∨ (s.point .mp1).queue ≠ []) ∨ 4 ≤ s.port.waitCount) :
    s.evaluatorGranted = false := by
  rw [Bool.eq_false_iff, ne_eq, evaluatorGranted_iff, executorRequests_of hx]
  rintro ⟨_, hr, hr' | hw'⟩
  · cases hr'
  · rcases hw with hw | hw
    · exact hw hr
    · omega

theorem executorGranted_eq_false (hr : (s.point .mp0).queue ≠ [] ∨ (s.point .mp1).queue ≠ []) (hw : s.port.waitCount < 4) :
    s.executorGranted = false := by
  rw [Bool.eq_false_iff, ne_eq, executorGranted_iff]
  rintro ⟨_, _, hr' | hw'⟩
  · exact hr' hr
  · omega

/-! ### The idle step (log 2, log 14) -/

theorem tablePort_due (t : TablePort) :
    t.due = match t.occupant with
      | .free => []
      | .evaluator => if t.left = 0 then [.evaluatorAccessComplete] else []
      | .executor => if t.left = 0 then [.executorAccessComplete] else [] := by
  unfold TablePort.due
  cases t.occupant <;> simp

theorem point_due (m : MeasuringPoint) (p : Point) :
    m.due p =
      (match m.tracker with
        | .noPulse => []
        | .settling => []
        | .qualifying _ n =>
          if (m.config.mode = .edgeRise ∨ m.config.mode = .edgeFall) ∧ m.config.minPeriods ≤ n then
            [.strobeCompletion p]
          else []) ++
        (if m.trg = true ∧ m.trgLeft = 0 then [.triggerPulseEnd p] else []) := by
  unfold MeasuringPoint.due
  cases m.tracker <;> simp [← StrobeMode.isCentre_eq_false_iff]

theorem cu_due (c : Cu) :
    c.due =
      if c.msPeriods = 0 then (if c.timerEnable = true ∧ c.timerCount = 0 then [.expiry] else [.millisecondTick])
      else [] := by
  simp [Cu.due]

theorem clkPeriod_of_disabled {m : MeasuringPoint} (h : m.state = .disabled) :
    m.clkPeriod = { m with trgLeft := m.trgLeft - 1 } := by
  simp [MeasuringPoint.clkPeriod, MeasuringPoint.sampleStrobe, MeasuringPoint.enabled, h, MeasuringPoint.countTrigger]

/-- An enabled point samples its line, and counts the period of a pulse in QUALIFYING (R52, R57). -/
theorem clkPeriod_of_enabled {m : MeasuringPoint} (h : m.state ≠ .disabled) :
    m.clkPeriod =
      { m with
        stbKept := m.stb, trgLeft := m.trgLeft - 1
        tracker :=
          match m.tracker with
          | .qualifying x n => .qualifying x (if m.stb = m.config.mode.activeLevel then n + 1 else n)
          | .noPulse => .noPulse
          | .settling => .settling } := by
  rw [← MeasuringPoint.enabled_iff] at h
  refine (congrArg MeasuringPoint.countTrigger (if_pos h)).trans ?_
  cases m.tracker <;> rfl

theorem clkPeriod_of_no_strobe {m : MeasuringPoint} (h : m.state ≠ .disabled) (ht : m.tracker.inProgress = false) :
    m.clkPeriod = { m with stbKept := m.stb, trgLeft := m.trgLeft - 1 } := by
  rw [clkPeriod_of_enabled h]
  cases hm : m.tracker <;> simp [hm, Tracker.inProgress] at ht ⊢

theorem dueGrant_of_evaluator (h : s.evaluatorGranted = true) : s.dueGrant = some .evaluatorAccess := by
  simp [State.dueGrant, h]

theorem dueGrant_of_executor {j : Job} (he : s.evaluatorGranted = false) (h : s.Grants j) :
    s.dueGrant = some j.accessCommand := by
  simp [State.dueGrant, he, h.1, h.2]

theorem dueGrant_eq_none (he : s.evaluatorGranted = false) (hx : ∀ j, ¬s.Grants j) : s.dueGrant = none := by
  unfold State.dueGrant
  rw [he]
  cases hj : s.req.executor with
  | waiting j => simp [eq_false_of_ne_true fun hg => hx j ⟨hj, hg⟩]
  | _ => simp

theorem idle_of_dueGrant {i : Instr} (h : s.dueGrant = some i) : s.idle = { s with pending := [i] } := by
  simp [State.idle, h]

theorem idle_of_no_grant (h : s.dueGrant = none) : s.idle = { s.clkPeriod with pending := s.clkPeriod.due } := by
  simp [State.idle, h]

/-- Settles O2: the grant by the two conditions of R142, and otherwise one period field by field. -/
theorem idleStepGrantsOrCountsOnePeriod : Obligations.IdleStepGrantsOrCountsOnePeriod := by
  intro s hp hms
  have hstep : step s = .next s.idle := by simp [step, hp]
  have heval : s.evaluatorGranted = true ↔ s.port.occupant = .free ∧
      ((s.point .mp0).queue ≠ [] ∨ (s.point .mp1).queue ≠ []) ∧
        ((∀ j, s.req.executor ≠ .waiting j) ∨ s.port.waitCount < 4) := by
    rw [evaluatorGranted_iff, executorRequests_eq_false_iff]
  have hexec : ∀ j, s.Grants j ↔ s.port.occupant = .free ∧ s.req.executor = .waiting j ∧
      (¬((s.point .mp0).queue ≠ [] ∨ (s.point .mp1).queue ≠ []) ∨ 4 ≤ s.port.waitCount) := fun j => by
    unfold State.Grants
    rw [executorGranted_iff]
    constructor
    · rintro ⟨hx, ho, _, hw⟩
      exact ⟨ho, hx, hw⟩
    · rintro ⟨ho, hx, hw⟩
      exact ⟨hx, ho, executorRequests_of hx, hw⟩
  refine ⟨fun h => ?_, fun j h => ?_, fun hno hnox => ?_⟩
  · rw [hstep, idle_of_dueGrant (dueGrant_of_evaluator (heval.2 h))]
  · have hdue := dueGrant_of_executor (evaluatorGranted_eq_false h.2.1 h.2.2) ((hexec j).2 h)
    refine (hstep.trans (congrArg _ (idle_of_dueGrant hdue))).trans ?_
    cases j <;> rfl
  · have hnone := dueGrant_eq_none (eq_false_of_ne_true fun he => hno (heval.1 he)) fun j hj => hnox j ((hexec j).1 hj)
    refine ⟨_, hstep.trans (congrArg _ (idle_of_no_grant hnone)), rfl, rfl, rfl, rfl, rfl, rfl, rfl, rfl, rfl, ?_,
      fun p h => ?_, fun p h ht => ?_, fun p x n h ht => ?_, ?_⟩
    · refine congrArg (fun k => { s.cu with msPeriods := k }) ?_
      show (if s.cu.msPeriods + 1 < 80000 then s.cu.msPeriods + 1 else 0) = _
      split <;> split <;> omega
    · exact (s.clkPeriod_point p).trans (clkPeriod_of_disabled h)
    · exact (s.clkPeriod_point p).trans (clkPeriod_of_no_strobe h ht)
    · refine (s.clkPeriod_point p).trans ((clkPeriod_of_enabled h).trans ?_)
      rw [ht]
    · show s.clkPeriod.due = _
      unfold State.due
      rw [tablePort_due, point_due, point_due, cu_due]
      rfl

/-! ### The arbiter while the executor waits (R131, R141, R142) -/

theorem exec_evaluatorAccess_of_not_granted (h : s.evaluatorGranted = false) : exec .evaluatorAccess s = .next s := by
  show execEvaluatorAccess s = _
  simp [execEvaluatorAccess, h]

/-- The chosen queue holds a record when either queue does (R132). -/
theorem chosenQueue_ne_nil (h : (s.point .mp0).queue ≠ [] ∨ (s.point .mp1).queue ≠ []) :
    (s.point s.chosenQueue).queue ≠ [] := by
  unfold State.chosenQueue
  split
  · next he =>
    rw [List.isEmpty_iff] at he
    cases hp : s.pointer <;> rw [hp] at he
    · exact h.resolve_left (not_not.2 he)
    · exact h.resolve_right (not_not.2 he)
  · next he => simpa using he

theorem exec_evaluatorAccess_of_granted (h : s.evaluatorGranted = true) {r : PassRecord} {rest : List PassRecord}
    (hq : (s.point s.chosenQueue).queue = r :: rest) :
    exec .evaluatorAccess s = .next ((s.evaluate s.chosenQueue r).grantEvaluator s.chosenQueue) := by
  show execEvaluatorAccess s = _
  unfold execEvaluatorAccess
  rw [if_pos h, hq]

theorem grantEvaluator_port (s : State) (r : PassRecord) (p q : Point) :
    ((s.evaluate p r).grantEvaluator q).port =
      { occupant := .evaluator, left := 8
        waitCount := if s.executorRequests then s.port.waitCount + 1 else s.port.waitCount } := by
  have hx : (s.evaluate p r).executorRequests = s.executorRequests := by
    unfold State.executorRequests; rw [State.evaluate_req]
  show TablePort.mk _ _ (if _ then _ else _) = _
  rw [hx, State.evaluate_port]

/-- Settles O3: who is granted, by the two conditions of R142. -/
theorem arbiterGrantsByTheWaitCount : Obligations.ArbiterGrantsByTheWaitCount := by
  intro s j hx
  have hgrant : s.executorGranted = true → ∃ t, exec j.accessCommand s = .next t ∧ t.req.executor.isAccessing = true ∧
      t.port = { occupant := .executor, left := 8, waitCount := 0 } := fun hg =>
    ⟨_, exec_accessCommand ⟨hx, hg⟩, rfl, rfl⟩
  refine ⟨fun ho => ⟨?_, ?_⟩, fun ho hr hw => ⟨?_, ?_⟩, fun ho hr hw => ⟨?_, ?_⟩, fun ho h0 h1 => ?_⟩
  · exact exec_evaluatorAccess_of_not_granted (eq_false_of_ne_true fun h => ho ((evaluatorGranted_iff s).1 h).1)
  · exact exec_accessCommand_of_not_granted j (eq_false_of_ne_true fun h => ho ((executorGranted_iff s).1 h).1)
  · exact exec_accessCommand_of_not_granted j (executorGranted_eq_false hr hw)
  · obtain ⟨r, rest, hq⟩ := List.exists_cons_of_ne_nil (chosenQueue_ne_nil hr)
    refine ⟨_, exec_evaluatorAccess_of_granted ((evaluatorGranted_iff s).2 ⟨ho, hr, .inr hw⟩) hq, by simp, ?_⟩
    rw [grantEvaluator_port, if_pos (executorRequests_of hx)]
  · exact exec_evaluatorAccess_of_not_granted (evaluatorGranted_eq_false hx (.inr hw.ge))
  · exact hgrant ((executorGranted_iff s).2 ⟨ho, executorRequests_of hx, .inr hw.ge⟩)
  · exact hgrant ((executorGranted_iff s).2 ⟨ho, executorRequests_of hx, .inl (not_or.2 ⟨not_not.2 h0, not_not.2 h1⟩)⟩)

/-! ### Completions (R130, R133, R143, R189) -/

theorem exec_executorAccessComplete_answer {r : Response} (h : s.req.executor = .accessing (.answer r)) :
    exec .executorAccessComplete s = .next ({ s with port := s.port.release }.place r) := by
  show execExecutorAccessComplete s = _
  unfold execExecutorAccessComplete
  rw [h]

theorem exec_executorAccessComplete_ask {j : Job} (h : s.req.executor = .accessing (.ask j)) :
    exec .executorAccessComplete s =
      .next { s with port := s.port.release, req := { s.req with executor := .waiting j } } := by
  show execExecutorAccessComplete s = _
  unfold execExecutorAccessComplete
  rw [h]

theorem exec_evaluatorAccessComplete (h : s.port.occupant = .evaluator) :
    exec .evaluatorAccessComplete s =
      .next ({ s with port := s.port.release }.setPoint s.pointer.other (s.point s.pointer.other).dropOldest) := by
  show execEvaluatorAccessComplete s = _
  unfold execEvaluatorAccessComplete
  rw [if_pos h]

/-- A response placed raises RESPONSE_READY and no other kind (R180). -/
theorem place_eq (s : State) (r : Response) :
    s.place r =
      { s with
        notices := { s.notices with flags := { s.notices.flags with responseReady := true } }
        req := { s.req with slot := some r, link := .ready, executor := .free } } := by
  simp [State.place, State.raise, Kinds.ofFn, Kinds.get]

/-- Settles O57: the three completions. -/
theorem completionsFreeThePort : Obligations.CompletionsFreeThePort := by
  intro s
  refine ⟨fun r h => ?_, fun j h => exec_executorAccessComplete_ask h, fun h => exec_evaluatorAccessComplete h⟩
  rw [exec_executorAccessComplete_answer h, place_eq]
  rfl

end Sys2Proof.Proofs.Arbiter

namespace Sys2Proof.Proofs.Reset

open Sys2Proof.Machine

/-! ### Power-on -/

/-- Settles O4: the values of each block, and POWER_ON_RESET. -/
theorem powerOnResetGivesThePowerOnValues : Obligations.PowerOnResetGivesThePowerOnValues := by
  refine ⟨⟨fun a => ?_, fun a => ?_, fun a => ?_, rfl, rfl, fun p => ?_, fun n => rfl, fun p => ?_, rfl, rfl, fun k => ?_, rfl,
    rfl⟩, fun s => ?_⟩
  · exact Axes.get_all _ _
  · rfl
  · exact Axes.get_all _ _
  · cases p <;> rfl
  · cases p <;> rfl
  · exact ⟨Kinds.get_all _ _, Kinds.get_all _ _⟩
  · rw [exec_powerOnReset]
    have hq : s.req.transfer.powerOn = match s.req.transfer with
        | .high => .high
        | .low _ _ _ => .ignored
        | .ignored => .ignored := by cases s.req.transfer <;> rfl
    unfold State.powerOn RequestPort.powerOn
    rw [hq]
    rfl

/-- Settles O14: each invariant at its reset values. -/
theorem resetMeetsEveryInvariant : Obligations.ResetMeetsEveryInvariant := by
  have hpoints : State.reset.PointsOk := fun p => Points.pointOk_reset p
  have htable : State.reset.TableInv := ⟨Table.tableOk_reset, trivial⟩
  refine ⟨Channels.channelsOk_reset, Channels.sampledOk_reset, Channels.lostNowOk_of_clear rfl, Medium.cuOk_reset, hpoints,
    fun p hr => ?_, htable, ⟨htable, hpoints, fun p => ?_⟩, fun e he => ?_, Ports.portsInv_fresh rfl rfl rfl ?_⟩
  · cases p <;> cases hr
  · cases p <;> exact Cursors.designates_of_inactive rfl
  · cases he
  · rintro st f l ⟨⟩

end Sys2Proof.Proofs.Reset

/-! The axes: the bounds of Kc and Vx, and a phase sample channel by channel and point by point (R4 to R16, R26, R27, R37, R46 to R51,
R64). -/

namespace Sys2Proof.Proofs.Samples

open Sys2Proof.Machine

/-! ### Bounds (R26, R27, R49) -/

theorem vacuumScale_range {wavelength fold : Nat} (hw : Config.lambdaMin ≤ wavelength ∧ wavelength ≤ Config.lambdaMax)
    (hf : fold = 1 ∨ fold = 2) :
    419430400000 ≤ vacuumScale wavelength fold ∧ vacuumScale wavelength fold ≤ 2306867200000 := by
  obtain ⟨h1, h2⟩ := hw
  unfold Config.lambdaMin at h1
  unfold Config.lambdaMax at h2
  unfold vacuumScale
  rcases hf with rfl | rfl
  · have hb := roundDiv_bounds ((wavelength : Int) * 2097152) (1000 * ((1 : Nat) : Int)) (by decide)
    push_cast at hb ⊢
    omega
  · have hb := roundDiv_bounds ((wavelength : Int) * 2097152) (1000 * ((2 : Nat) : Int)) (by decide)
    push_cast at hb ⊢
    omega

theorem compensatedScale_range {q w : Int} (hq : 419430400000 ≤ q ∧ q ≤ 2306867200000)
    (hw : -Config.wMax ≤ w ∧ w ≤ Config.wMax) : 0 < compensatedScale q w ∧ compensatedScale q w < 2311481000000 := by
  have hlow : q * -20000000 ≤ q * w := mul_le_mul_of_nonneg_left hw.1 (by omega)
  have hhigh : q * w ≤ q * 20000000 := mul_le_mul_of_nonneg_left hw.2 (by omega)
  have hb := roundDiv_bounds (q * w) 10000000000 (by decide)
  unfold compensatedScale
  omega

theorem kc_range {c : Channel} {w : Int} (h : ChannelOk c w) (hw : -Config.wMax ≤ w ∧ w ≤ Config.wMax) :
    0 < c.kc ∧ c.kc < 2311481000000 := by
  rw [h.compensated, h.scale]
  exact compensatedScale_range (vacuumScale_range h.wavelength_range h.fold_values) hw

theorem abs_sum_le {b : Int} {l : List Int} (h : ∀ d ∈ l, -b ≤ d ∧ d ≤ b) : |l.sum| ≤ b * l.length := by
  induction l with
  | nil => simp
  | cons d t ih =>
    have hd : |d| ≤ b := abs_le.2 (h d (by simp))
    have ht := ih fun e he => h e (by simp [he])
    calc |(d :: t).sum| ≤ |d| + |t.sum| := by rw [List.sum_cons]; exact abs_add_le _ _
      _ ≤ b * (d :: t).length := by rw [List.length_cons]; push_cast; linarith

/-- Vel, the sum of at most 16 steps (R8, R10). -/
theorem abs_history_sum_le {l : List Int} (hl : l.length ≤ 16) (hs : ∀ d ∈ l, -384 ≤ d ∧ d ≤ 384) : |l.sum| ≤ 6144 := by
  have h := abs_sum_le hs
  have hl' : (l.length : Int) ≤ 16 := by exact_mod_cast hl
  linarith

theorem abs_sumAxes_le {f : Axis → Int} {b : Int} (h : ∀ a, |f a| ≤ b) : |sumAxes f| ≤ 6 * b := by
  have hb := fun a => abs_le.1 (h a)
  have h0 := hb 0
  have h1 := hb 1
  have h2 := hb 2
  have h3 := hb 3
  have h4 := hb 4
  have h5 := hb 5
  unfold sumAxes
  rw [abs_le]
  omega

/-- One axis's part of Vx. -/
theorem abs_velocity_term_le {c v k : Int} (hc : |c| ≤ 2097152) (hv : |v| ≤ 6144) (hk : 0 < k ∧ k < 2311481000000) :
    |c * v * k| ≤ 2097152 * 6144 * 2311481000000 := by
  rw [abs_mul, abs_mul]
  have hk' : |k| ≤ 2311481000000 := by rw [abs_of_pos hk.1]; exact hk.2.le
  exact mul_le_mul (mul_le_mul hc hv (abs_nonneg v) (by decide)) hk' (abs_nonneg k) (by decide)

theorem abs_formVx_lt {coeffs : Axes Int} {chs : Axes Channel} (hc : ∀ a, |coeffs.get a| ≤ 2097152)
    (h : ∀ a, ∃ w, -Config.wMax ≤ w ∧ w ≤ Config.wMax ∧ ChannelOk (chs.get a) w) : |formVx coeffs chs| < 40000000 := by
  have hsum : |sumAxes fun a => coeffs.get a * (chs.get a).vel * (chs.get a).kc| ≤
      6 * (2097152 * 6144 * 2311481000000) := by
    refine abs_sumAxes_le fun a => ?_
    obtain ⟨w, hw1, hw2, ok⟩ := h a
    exact abs_velocity_term_le (hc a) (abs_history_sum_le ok.history_length ok.history_steps) (kc_range ok ⟨hw1, hw2⟩)
  have hb := roundDiv_bounds (sumAxes fun a => coeffs.get a * (chs.get a).vel * (chs.get a).kc) 4503599627370496 (by decide)
  rw [abs_le] at hsum
  unfold formVx
  rw [abs_lt]
  omega

/-- Settles O17: the bounds of λ and W bound Kc, the steps bound Vel, and the six parts bound Vx. -/
theorem velocityStaysBelowFortyMillion : Obligations.VelocityStaysBelowFortyMillion := by
  intro s coeffs hcoeffs
  have hc : ∀ a, |coeffs.get a| ≤ 2097152 := fun a => abs_le.2 (hcoeffs a)
  refine ⟨fun ok hw => ⟨fun a => kc_range (ok a) (hw a), ?_⟩, fun ok => abs_formVx_lt hc ok⟩
  exact abs_formVx_lt hc fun a => ⟨_, (hw a).1, (hw a).2, ok a⟩

/-! ### A sample and one channel (R5 to R16) -/

section
variable {c : Channel} {phase last : Phase} {sigok refok : Bool}

theorem sample_of_off (h : c.state = .off) : (c.sample phase sigok refok).channel = { c with sigok := sigok } := by
  simp [Channel.sample, h]

theorem sample_of_lost (h : c.state = .lost) :
    (c.sample phase sigok refok).channel =
      { c with sigok := sigok, lastPhase := if (sigok && refok) = true then some phase else none } := by
  simp [Channel.sample, h, Channel.lostSample]

theorem sample_of_counting (h : c.state = .relative ∨ c.state = .tracking) :
    c.sample phase sigok refok = { c with sigok := sigok }.countingSample phase (sigok && refok) := by
  rcases h with h | h <;> simp [Channel.sample, h]

theorem countingSample_unseeded (h : c.lastPhase = none) (good : Bool) :
    (c.countingSample phase good).channel = if good then { c with lastPhase := some phase } else c := by
  simp [Channel.countingSample, h]

/-- A channel behind the end of a hold, if it was in one (R13). -/
def afterHold (c : Channel) : Channel :=
  { c with
    hold := 0
    dropouts := if c.hold = 0 then c.dropouts else min 255 (c.dropouts + 1) }

/-- A seeded counting channel at good lines: a hold, if there is one, ends and is counted, and a step is formed (R7, R13). -/
theorem countingSample_good (h : c.lastPhase = some last) :
    c.countingSample phase true = (afterHold c).countStep last phase := by
  simp only [afterHold, Channel.countingSample, h, if_true, Channel.recover, Channel.inHold, decide_eq_true_eq, bump8_eq_min]
  by_cases hh : c.hold = 0
  · rw [if_neg (not_not.2 hh), if_pos hh]
    congr 1
    cases c
    cases hh
    simpa using h
  · rw [if_pos hh, if_neg hh]

theorem countingSample_bad (h : c.lastPhase ≠ none) : c.countingSample phase false = c.holdStep := by
  obtain ⟨last, hl⟩ := Option.ne_none_iff_exists'.1 h
  simp [Channel.countingSample, hl]

theorem countStep_eq (c : Channel) (last phase : Phase) :
    c.countStep last phase =
      if 384 < stepOf c.invert last phase ∨ stepOf c.invert last phase < -384 then c.enterLost .rate
      else if 549755813887 < c.count + stepOf c.invert last phase then { c with count := 549755813887 }.enterLost .range
      else if c.count + stepOf c.invert last phase < -549755813887 then
        { c with count := -549755813887 }.enterLost .range
      else
        { channel :=
            { c with
              count := c.count + stepOf c.invert last phase, lastPhase := some phase
              history := appendStep c.history (stepOf c.invert last phase) }
          lost := false } := rfl

theorem countStep_of_rate (h : 384 < |stepOf c.invert last phase|) :
    (c.countStep last phase).channel = { c with state := .lost, lostCause := .rate, hold := 0 } := by
  rw [lt_abs] at h
  rw [countStep_eq, if_pos (by omega)]
  rfl

theorem countStep_of_high (h : |stepOf c.invert last phase| ≤ 384) (hc : 549755813887 < c.count + stepOf c.invert last phase) :
    (c.countStep last phase).channel =
      { c with state := .lost, lostCause := .range, hold := 0, count := 549755813887 } := by
  rw [abs_le] at h
  rw [countStep_eq, if_neg (by omega), if_pos hc]
  rfl

theorem countStep_of_low (h : |stepOf c.invert last phase| ≤ 384)
    (hc : c.count + stepOf c.invert last phase < -549755813887) :
    (c.countStep last phase).channel =
      { c with state := .lost, lostCause := .range, hold := 0, count := -549755813887 } := by
  rw [abs_le] at h
  rw [countStep_eq, if_neg (by omega), if_neg (by omega), if_pos hc]
  rfl

/-- The history keeps the last 16 steps (R10). -/
theorem appendStep_eq_drop {h : List Int} (hl : h.length ≤ 16) (d : Int) :
    appendStep h d = (h ++ [d]).drop (h.length - 15) := by
  unfold appendStep Config.historyLength
  split
  · next h16 =>
    have he : h.length = 16 := le_antisymm hl h16
    rw [he, List.drop_append_of_le_length (by omega)]
  · rw [show h.length - 15 = 0 by omega]
    rfl

theorem countStep_of_counted (hl : c.history.length ≤ 16) (h : |stepOf c.invert last phase| ≤ 384)
    (hlow : -549755813887 ≤ c.count + stepOf c.invert last phase)
    (hhigh : c.count + stepOf c.invert last phase ≤ 549755813887) :
    (c.countStep last phase).channel =
      { c with
        count := c.count + stepOf c.invert last phase, lastPhase := some phase
        history := (c.history ++ [stepOf c.invert last phase]).drop (c.history.length - 15) } := by
  rw [abs_le] at h
  rw [countStep_eq, if_neg (by omega), if_neg (by omega), if_neg (by omega), appendStep_eq_drop hl]

theorem holdStep_of_lt (h : c.hold + 1 < c.dropLimit) : c.holdStep.channel = { c with hold := c.hold + 1 } := by
  unfold Channel.holdStep
  rw [if_neg (by omega)]

theorem holdStep_of_ge (h : c.dropLimit ≤ c.hold + 1) :
    c.holdStep.channel = { c with state := .lost, lostCause := .dropout, hold := 0 } := by
  unfold Channel.holdStep
  rw [if_pos h]
  rfl

/-- No sample touches Kc (R37). -/
theorem countStep_kc (c : Channel) (last phase : Phase) : (c.countStep last phase).channel.kc = c.kc := by
  rcases c.countStep_cases last phase with e | e | e | ⟨_, _, _, _, e⟩ <;> rw [e] <;> rfl

theorem countingSample_kc (c : Channel) (phase : Phase) (good : Bool) : (c.countingSample phase good).channel.kc = c.kc := by
  cases hl : c.lastPhase with
  | none =>
    rw [countingSample_unseeded hl]
    split_ifs <;> rfl
  | some last =>
    cases good with
    | true =>
      rw [countingSample_good hl, countStep_kc]
      rfl
    | false =>
      rw [countingSample_bad (by simp [hl]), Channel.holdStep]
      split_ifs <;> rfl

theorem sample_kc (c : Channel) (phase : Phase) (sigok refok : Bool) :
    (c.sample phase sigok refok).channel.kc = c.kc := by
  cases hs : c.state with
  | off => rw [sample_of_off hs]
  | lost => rw [sample_of_lost hs]
  | relative => rw [sample_of_counting (.inl hs), countingSample_kc]
  | tracking => rw [sample_of_counting (.inr hs), countingSample_kc]

end

/-! ### The phase sample, channel by channel -/

section
variable (s : State) (phases : Axes Phase) (sigok : Axes Bool) (refok : Bool)

/-- The channel of an axis behind a whole phase sample, Kc apart (R37). -/
theorem examined_channel (a : Axis) :
    ∃ k, (s.sampleUpdated phases sigok refok).examine.channels.get a =
      { ((s.channels.get a).sample (phases.get a) (sigok.get a) refok).channel with kc := k } := by
  have h := (s.sampleUpdated phases sigok refok).examine_channel a
  rw [State.sampleUpdated_channels, State.axesAfter_get] at h
  exact ⟨_, h⟩

theorem examined_refok : (s.sampleUpdated phases sigok refok).examine.refok = refok := by simp

end

theorem stepOf_range (last phase : Phase) :
    (stepOf false last phase - ((phase.val : Int) - (last.val : Int))) % 1024 = 0 ∧
      -512 ≤ stepOf false last phase ∧ stepOf false last phase ≤ 511 := by
  have h1 := phase.isLt
  have h2 := last.isLt
  simp only [stepOf, Bool.false_eq_true, if_false]
  split_ifs <;> omega

/-- Settles O18: the rows of R5 at good lines, on the channel as the sample found it, and Kc as the examination left it. -/
theorem goodSampleActsOnEveryChannel : Obligations.GoodSampleActsOnEveryChannel := by
  refine ⟨fun last phase => ⟨(stepOf_range last phase).1, (stepOf_range last phase).2.1, (stepOf_range last phase).2.2, rfl⟩,
    fun s phases sigok => ⟨_, exec_phaseSample s phases sigok true, examined_refok s phases sigok true,
      fun a hgood hlen => ?_⟩⟩
  obtain ⟨k, hk⟩ := examined_channel s phases sigok true a
  rw [hk, hgood]
  generalize s.channels.get a = c at hlen ⊢
  refine ⟨fun (hs : c.state = .off) => ?_, fun (hs : c.state = .lost) => ?_,
    fun (hs : c.state = .relative ∨ c.state = .tracking) => ?_⟩
  · rw [sample_of_off hs]
  · rw [sample_of_lost hs]
    rfl
  · rw [sample_of_counting hs]
    refine ⟨fun (hp : c.lastPhase = none) => ?_, fun last (hp : c.lastPhase = some last) => ?_⟩
    · rw [countingSample_unseeded (c := { c with sigok := true }) hp]
      rfl
    · rw [Bool.true_and, countingSample_good (c := { c with sigok := true }) hp]
      refine ⟨fun hd => ?_, fun hd hc => ?_, fun hd hc => ?_, fun hd h1 h2 => ?_⟩
      · exact congrArg (fun x : Channel => { x with kc := k }) (countStep_of_rate (c := afterHold { c with sigok := true }) hd)
      · exact congrArg (fun x : Channel => { x with kc := k }) (countStep_of_high (c := afterHold { c with sigok := true }) hd hc)
      · exact congrArg (fun x : Channel => { x with kc := k }) (countStep_of_low (c := afterHold { c with sigok := true }) hd hc)
      · exact congrArg (fun x : Channel => { x with kc := k })
          (countStep_of_counted (c := afterHold { c with sigok := true }) hlen hd h1 h2)

/-- Settles O19: the rows of R5 at lines not good. -/
theorem badSampleHoldsOrLosesEveryChannel : Obligations.BadSampleHoldsOrLosesEveryChannel := by
  intro s phases sigok refok
  refine ⟨_, exec_phaseSample s phases sigok refok, examined_refok s phases sigok refok, fun a hbad => ?_⟩
  obtain ⟨k, hk⟩ := examined_channel s phases sigok refok a
  rw [hk]
  generalize s.channels.get a = c
  refine ⟨fun (hs : c.state = .off) => ?_, fun (hs : c.state = .lost) => ?_,
    fun (hs : c.state = .relative ∨ c.state = .tracking) => ?_⟩
  · rw [sample_of_off hs]
  · rw [sample_of_lost hs, hbad]
    rfl
  · rw [sample_of_counting hs, hbad]
    refine ⟨fun (hp : c.lastPhase = none) => ?_, fun (hp : c.lastPhase ≠ none) (hlt : c.hold + 1 < c.dropLimit) => ?_,
      fun (hp : c.lastPhase ≠ none) (hge : c.dropLimit ≤ c.hold + 1) => ?_⟩
    · rw [countingSample_unseeded (c := { c with sigok := sigok.get a }) hp]
      rfl
    · rw [countingSample_bad (c := { c with sigok := sigok.get a }) hp,
        holdStep_of_lt (c := { c with sigok := sigok.get a }) hlt]
    · rw [countingSample_bad (c := { c with sigok := sigok.get a }) hp,
        holdStep_of_ge (c := { c with sigok := sigok.get a }) hge]

end Sys2Proof.Proofs.Samples

/-! A phase sample and the points: X, Vx and the direction, the losses, and the notices (R4, R14, R15, R46 to R51, R64, R164). -/

namespace Sys2Proof.Proofs.Samples

open Sys2Proof.Machine

/-! ### What the window logic leaves of a position update -/

/-- The same position, speed, direction and settings. -/
structure SamePosition (m n : MeasuringPoint) : Prop where
  x : n.x = m.x
  prevX : n.prevX = m.prevX
  vx : n.vx = m.vx
  direction : n.direction = m.direction
  config : n.config = m.config

theorem SamePosition.refl (m : MeasuringPoint) : SamePosition m m := ⟨rfl, rfl, rfl, rfl, rfl⟩

theorem SamePosition.trans {m n o : MeasuringPoint} (h : SamePosition m n) (g : SamePosition n o) : SamePosition m o :=
  ⟨g.x.trans h.x, g.prevX.trans h.prevX, g.vx.trans h.vx, g.direction.trans h.direction, g.config.trans h.config⟩

section
variable (m : MeasuringPoint) {idx : List IndexItem} {stale : Bool}

theorem samePosition_seek : SamePosition m (m.seek idx).point := by
  obtain ⟨c, g, n, e⟩ := m.seek_eq idx
  rw [e]
  exact ⟨rfl, rfl, rfl, rfl, rfl⟩

theorem samePosition_closeStopped (cause : CloseCause) : SamePosition m (m.closeStopped stale cause) := by
  rcases m.closeStopped_cases stale cause with ⟨_, e⟩ | ⟨_, _, _, _, ⟨_, e⟩ | ⟨_, e⟩⟩ <;> rw [e] <;>
    exact ⟨rfl, rfl, rfl, rfl, rfl⟩

theorem samePosition_suspend (cause : SuspendCause) : SamePosition m (m.suspend stale cause).point :=
  (samePosition_closeStopped m .suspended).trans ⟨rfl, rfl, rfl, rfl, rfl⟩

theorem samePosition_closeScanning (cause : CloseCause) (r : OpenPass) :
    SamePosition m (m.closeScanning idx stale cause r).point := by
  rcases m.closeScanning_cases idx stale cause r with ⟨_, e⟩ | ⟨_, e⟩ <;> rw [e]
  · refine SamePosition.trans ?_ (samePosition_seek _)
    exact ⟨rfl, rfl, rfl, rfl, rfl⟩
  · exact ⟨rfl, rfl, rfl, rfl, rfl⟩

theorem samePosition_takeCommit : SamePosition m m.takeCommit := by
  rcases m.takeCommit_cases with ⟨_, e⟩ | ⟨_, _, _, _, e⟩ <;> rw [e] <;> exact ⟨rfl, rfl, rfl, rfl, rfl⟩

theorem samePosition_move {n : MeasuringPoint} (h : WindowMove idx stale m n) : SamePosition m n := by
  cases h with
  | fire d dir t armed => exact ⟨rfl, rfl, rfl, rfl, rfl⟩
  | seek => exact samePosition_seek m
  | opens d dir t armed => exact ⟨rfl, rfl, rfl, rfl, rfl⟩
  | closes d dir r cause opened => exact samePosition_closeScanning m cause r
  | suspend cause => exact samePosition_suspend m cause

theorem samePosition_moves {n : MeasuringPoint} (h : WindowMoves idx stale m n) : SamePosition m n := by
  induction h with
  | refl => exact .refl m
  | tail _ step ih => exact ih.trans (samePosition_move _ step)

/-- What a point forms depends on its position and its settings alone. -/
theorem SamePosition.formUpdate {m n : MeasuringPoint} (h : SamePosition m n) (chs : Axes Channel) :
    SamePosition (m.formUpdate chs) (n.formUpdate chs) := by
  simp only [MeasuringPoint.formUpdate, MeasuringPoint.formPosition]
  exact ⟨by rw [h.config], h.x, by rw [h.config], by rw [h.config, h.direction], h.config⟩

theorem positionUpdate_samePosition (chs : Axes Channel) (h : m.state ≠ .disabled) :
    SamePosition (m.formUpdate chs) (m.positionUpdate chs idx stale).point := by
  unfold MeasuringPoint.positionUpdate
  rw [if_pos (m.enabled_iff.2 h)]
  rcases MeasuringPoint.windowUpdate_moves (m.formUpdate chs) idx stale _ _ with e | ⟨_, e⟩
  · rw [e]; exact .refl _
  · exact samePosition_moves _ e

theorem positionUpdate_of_disabled (chs : Axes Channel) (h : m.state = .disabled) :
    m.positionUpdate chs idx stale = .quiet m := by
  simp [MeasuringPoint.positionUpdate, MeasuringPoint.enabled, h]

/-- Outside SCANNING and HALTED a position update forms the position alone (R51). -/
theorem positionUpdate_of_resting (chs : Axes Channel) (h : m.state = .idle ∨ m.state = .suspended) :
    m.positionUpdate chs idx stale = .quiet (m.formUpdate chs) := by
  have hs : (m.formUpdate chs).state = m.state := rfl
  rcases h with h | h <;>
    simp [MeasuringPoint.positionUpdate, MeasuringPoint.enabled, MeasuringPoint.windowUpdate, hs, h]

theorem takeLoss_samePosition (lost : Axis → Bool) : SamePosition m (m.takeLoss stale lost).point :=
  samePosition_moves m (m.takeLoss_moves [] stale lost)

/-- A loss reaches a SCANNING or HALTED point alone (R65). -/
theorem takeLoss_of_not_running (lost : Axis → Bool) (h : m.running = false) : m.takeLoss stale lost = .quiet m := by
  rcases m.takeLoss_cases stale lost with ⟨hr, _⟩ | ⟨_, e⟩
  · rw [h] at hr; cases hr
  · exact e

theorem takeLoss_enabled (lost : Axis → Bool) (h : m.state ≠ .disabled) :
    (m.takeLoss stale lost).point.state ≠ .disabled := by
  rcases m.takeLoss_cases stale lost with ⟨_, _, e⟩ | ⟨_, e⟩ <;> rw [e]
  · exact nofun
  · exact h

theorem takeCommit_of_closed (h : m.passOpen = false) : m.takeCommit = m := by
  rcases m.takeCommit_cases with ⟨_, e⟩ | ⟨d, dir, r, hc, _⟩
  · exact e
  · rw [MeasuringPoint.passOpen_of hc] at h; cases h

end

theorem saturate_eq (v : Int) :
    saturate v = if 140737488355327 < v then 140737488355327
      else if v < -140737488355327 then -140737488355327 else v := by
  unfold saturate clampInt Config.posMax
  split_ifs <;> omega

/-! ### The points behind a phase sample -/

section
variable (s : State) (phases : Axes Phase) (sigok : Axes Bool) (refok : Bool)

/-- Kc apart, the examination leaves the axes as the sample left them (R37, R39). -/
theorem axesAfter_of_examined (a : Axis) :
    (s.axesAfter phases sigok refok).get a =
      { (s.sampleUpdated phases sigok refok).examine.channels.get a with kc := (s.channels.get a).kc } := by
  have h := (s.sampleUpdated phases sigok refok).examine_channel a
  rw [State.sampleUpdated_channels] at h
  rw [h, State.axesAfter_get, State.sampleAxis]
  exact (congrArg (fun k => { ((s.channels.get a).sample (phases.get a) (sigok.get a) refok).channel with kc := k })
    (sample_kc (s.channels.get a) (phases.get a) (sigok.get a) refok)).symm ▸ rfl

/-- What an enabled point forms at a sample (R48 to R50). -/
theorem examined_samePosition (p : Point) (h : (s.point p).state ≠ .disabled) :
    SamePosition ((s.point p).formUpdate (s.axesAfter phases sigok refok))
      ((s.sampleUpdated phases sigok refok).examine.point p) := by
  have hloss := takeLoss_samePosition (s.point p) (stale := s.cu.stale) fun a => (s.sampleAxis phases sigok refok a).lost
  have hform : SamePosition ((s.point p).formUpdate (s.axesAfter phases sigok refok))
      ((s.sampleUpdated phases sigok refok).point p) := by
    rw [State.sampleUpdated_point]
    exact (hloss.formUpdate _).trans (positionUpdate_samePosition _ _ (takeLoss_enabled _ _ h))
  rcases (s.sampleUpdated phases sigok refok).examine_point p with e | e <;> rw [e]
  · exact hform
  · exact hform.trans (samePosition_takeCommit _)

/-- A point behind a sample, when neither the loss nor the examination finds a pass of it (R38, R65). -/
theorem examined_point_of_update {p : Point} {n : MeasuringPoint} (hr : (s.point p).running = false)
    (hu : (s.point p).positionUpdate (s.axesAfter phases sigok refok) (s.index p) s.cu.stale = .quiet n)
    (ho : n.passOpen = false) : (s.sampleUpdated phases sigok refok).examine.point p = n := by
  have hn : (s.sampleUpdated phases sigok refok).point p = n := by
    rw [State.sampleUpdated_point, State.updateResult, State.lossResult, takeLoss_of_not_running _ _ hr]
    exact congrArg PointResult.point hu
  rcases (s.sampleUpdated phases sigok refok).examine_point p with e | e <;> rw [e, hn]
  exact takeCommit_of_closed n ho

end

/-- Settles O20: the window logic and the examination keep what the update formed, and outside SCANNING and HALTED nothing else
happens to a point. -/
theorem sampleFormsEveryPosition : Obligations.SampleFormsEveryPosition := by
  intro s phases sigok refok
  have hkept := axesAfter_of_examined s phases sigok refok
  refine ⟨_, exec_phaseSample s phases sigok refok, fun a => ?_, fun p => ?_⟩
  · rw [State.examine_sampled, State.sampleUpdated_sampled]
    exact hkept a
  intro m chs x vx u
  have hchs : chs = s.axesAfter phases sigok refok :=
    Axes.eq_of_get fun a => (Axes.get_ofFn _ a).trans (hkept a).symm
  have hu : u = m.formUpdate (s.axesAfter phases sigok refok) := by
    rw [← hchs]
    refine Eq.trans ?_ (congrArg (fun y => { m.formUpdate chs with x := y }) (saturate_eq x)).symm
    rfl
  refine ⟨fun hm => ?_, fun hm hc => ?_, fun hm hc => ?_⟩
  · obtain ⟨hx, hp, hv, hd, _⟩ := examined_samePosition s phases sigok refok p hm
    rw [hu]
    exact ⟨hx, hp, hv, hd⟩
  · have hr : m.running = false := by rcases hm with hm | hm <;> simp [MeasuringPoint.running, hm]
    rw [hu]
    exact examined_point_of_update s phases sigok refok hr (positionUpdate_of_resting m _ hm) hc
  · have hr : m.running = false := by simp [MeasuringPoint.running, hm]
    exact examined_point_of_update s phases sigok refok hr (positionUpdate_of_disabled m _ hm) hc

/-! ### Losses and notices -/

/-- A channel is lost at a sample exactly when it enters LOST there (R15). -/
theorem sample_lost_eq (c : Channel) (phase : Phase) (sigok refok : Bool) :
    (c.sample phase sigok refok).lost =
      (decide (c.state ≠ .lost) && decide ((c.sample phase sigok refok).channel.state = .lost)) := by
  cases hl : (c.sample phase sigok refok).lost with
  | true =>
    have hs : c.state ≠ .lost := fun hs => by simp [Channel.sample, hs, Channel.lostSample] at hl
    simp [hs, Channels.sample_lost hl]
  | false =>
    cases hs : c.state with
    | off => simp [sample_of_off hs, hs]
    | lost => simp
    | relative =>
      rw [sample_of_counting (.inl hs)] at hl ⊢
      have he := Tracking.countingSample_state hl
      rw [he]
      simp [hs]
    | tracking =>
      rw [sample_of_counting (.inr hs)] at hl ⊢
      have he := Tracking.countingSample_state hl
      rw [he]
      simp [hs]

/-- Settles O21: the state before the examination is the sample's, field by field. -/
theorem sampleHandsLossesThenUpdates : Obligations.SampleHandsLossesThenUpdates := by
  intro s phases sigok refok
  have hlost : ∀ a, (s.sampleAxis phases sigok refok a).lost = (decide ((s.channels.get a).state ≠ .lost) &&
      decide (((s.sampleUpdated phases sigok refok).channels.get a).state = .lost)) := fun a => by
    rw [State.sampleUpdated_channels, State.axesAfter_get]
    exact sample_lost_eq _ _ _ _
  refine ⟨s.sampleUpdated phases sigok refok, exec_phaseSample s phases sigok refok, fun a => ?_, by simp, by simp, ?_,
    by simp, by simp, by simp, by simp, by simp, by simp, by simp, by simp,
    fun h => State.examine_of_none (by simpa using h)⟩
  · rw [State.sampleUpdated_channels]
    exact axesAfter_of_examined s phases sigok refok a
  · intro lost
    have he : lost = fun a => (s.sampleAxis phases sigok refok a).lost := (funext hlost).symm
    clear_value lost
    subst he
    rw [State.sampleUpdated_channels]
    exact ⟨fun a => State.sampleUpdated_lostNow .., State.examine_lostNow _, fun p => State.sampleUpdated_point ..,
      fun k => s.sampleUpdated_flag phases sigok refok k⟩

end Sys2Proof.Proofs.Samples

/-! The window logic of a point: suspension, seeks, handed edits, and the updates at and around a window (R61, R64, R105 to R127). -/

namespace Sys2Proof.Proofs.Windows

open Sys2Proof.Machine

/-! ### Closes (R64, R104, R120 to R125) -/

section
variable (m : MeasuringPoint) (idx : List IndexItem) (stale : Bool)

theorem atClose_eq (t : Tracker) : t.atClose = if t.inProgress = true then .settling else t := by
  cases t <;> rfl

/-- A close of a SCANNING point offers the record (R123 to R125). -/
theorem closeScanning_offered (cause : CloseCause) (r : OpenPass) :
    OfferedAtClose { m with tracker := m.tracker.atClose } idx (r.close cause m.tracker.inProgress stale)
      (m.closeScanning idx stale cause r) := by
  rcases m.closeScanning_cases idx stale cause r with ⟨hq, e⟩ | ⟨hq, e⟩
  · exact ⟨fun _ => e, fun h => absurd (show 2 ≤ m.queue.length from h) (by omega)⟩
  · exact ⟨fun h => absurd (show m.queue.length < 2 from h) (by omega), fun _ => by rw [e, bump16_eq_min]⟩

/-- A close by STOP SCAN or a suspension, with the state and the cause that follow it (R61, R104, R120, R125). -/
theorem closeStopped_closed {cause : CloseCause} {outcome : Outcome}
    (ho : ∀ (r : OpenPass) inProgress, r.outcome cause inProgress = outcome) (state : RunState) (why : SuspendCause) :
    ClosedStopped m { m.closeStopped stale cause with state := state, cause := why } stale outcome := by
  rcases m.closeStopped_cases stale cause with ⟨hc, e⟩ | ⟨d, dir, r, hc, hq⟩
  · refine ⟨fun _ => by rw [e], fun d dir r h => ?_⟩
    rw [MeasuringPoint.passOpen_of h] at hc
    cases hc
  · refine ⟨fun h => ?_, fun d' dir' r' h => ?_⟩
    · rw [MeasuringPoint.passOpen_of hc] at h
      cases h
    · rw [hc] at h
      cases h
      rcases hq with ⟨hq, e⟩ | ⟨hq, e⟩ <;> rw [e]
      · refine ⟨fun _ => ?_, fun h => absurd h (by omega)⟩
        rw [OpenPass.close, ho]
      · refine ⟨fun h => absurd h (by omega), fun _ => ?_⟩
        rw [bump16_eq_min]

/-- Entry into SUSPENDED closes an open pass as AXIS_LOST (R64, R120). -/
theorem suspend_closed (cause : SuspendCause) :
    ∃ n, m.suspend stale cause = { point := n, events := [.pointSuspended] } ∧ n.state = .suspended ∧ n.cause = cause ∧
      ClosedStopped m n stale .axisLost :=
  ⟨_, rfl, rfl, rfl, closeStopped_closed m stale Passes.outcome_suspended _ _⟩

end

/-! ### The position update, by state (R115) -/

section
variable {m : MeasuringPoint} {chs : Axes Channel} (idx : List IndexItem) (stale : Bool)

theorem outOfRange_eq_false {x : Int} (h : |x| ≤ 140737488355327) : outOfRange x = false := by
  rw [abs_le] at h
  simp only [outOfRange, Config.posMax, decide_eq_false_iff_not]
  omega

theorem outOfRange_eq_true {x : Int} (h : 140737488355327 < |x|) : outOfRange x = true := by
  rw [lt_abs] at h
  simp only [outOfRange, Config.posMax, decide_eq_true_eq]
  omega

/-- Stage 1: a running point with X out of range is suspended (R48, R115). -/
theorem positionUpdate_of_outOfRange (hs : m.state = .scanning ∨ m.state = .halted)
    (hx : 140737488355327 < |rawX m.config.coeffs chs|) :
    m.positionUpdate chs idx stale = (m.formUpdate chs).suspend stale .range := by
  have hform : (m.formUpdate chs).state = m.state := rfl
  rcases hs with hs | hs <;>
    simp [MeasuringPoint.positionUpdate, MeasuringPoint.enabled, MeasuringPoint.windowUpdate, hform, hs,
      outOfRange_eq_true hx]

theorem positionUpdate_of_halted (hs : m.state = .halted) (hx : |rawX m.config.coeffs chs| ≤ 140737488355327) :
    m.positionUpdate chs idx stale = .quiet (m.formUpdate chs) := by
  have hform : (m.formUpdate chs).state = m.state := rfl
  simp [MeasuringPoint.positionUpdate, MeasuringPoint.enabled, MeasuringPoint.windowUpdate, hform, hs,
    outOfRange_eq_false hx]

/-- The later stages: a SCANNING point with X in range tests its open window, or approaches one (R115). -/
theorem positionUpdate_of_scanning (hs : m.state = .scanning) (hx : |rawX m.config.coeffs chs| ≤ 140737488355327) :
    m.positionUpdate chs idx stale =
      if m.passOpen then (m.formUpdate chs).closingTest idx stale
      else (m.formUpdate chs).approach idx stale (decide ((m.formUpdate chs).direction ≠ m.direction)) := by
  have hform : (m.formUpdate chs).state = m.state := rfl
  have hopen : (m.formUpdate chs).passOpen = m.passOpen := rfl
  simp [MeasuringPoint.positionUpdate, MeasuringPoint.enabled, MeasuringPoint.windowUpdate, hform, hopen, hs,
    outOfRange_eq_false hx]

theorem positionUpdate_of_opened {d : Designation} {dir : Travel} {r : OpenPass} (hs : m.state = .scanning)
    (hc : m.cursor = .opened d dir r) (hx : |rawX m.config.coeffs chs| ≤ 140737488355327) :
    m.positionUpdate chs idx stale = (m.formUpdate chs).closingTest idx stale := by
  rw [positionUpdate_of_scanning idx stale hs hx, if_pos (MeasuringPoint.passOpen_of hc)]

/-- Without a turn, an update tests the trigger and then the window (R113, R115, R116). -/
theorem positionUpdate_of_straight (hs : m.state = .scanning) (hc : m.passOpen = false)
    (hx : |rawX m.config.coeffs chs| ≤ 140737488355327) (hd : (m.formUpdate chs).direction = m.direction) :
    m.positionUpdate chs idx stale = (m.formUpdate chs).triggerTest.openingTest idx stale := by
  have hturn : ∀ n : MeasuringPoint, n.turnSeek idx false = .quiet n := fun n => by
    unfold MeasuringPoint.turnSeek
    cases n.cursor <;> rfl
  rw [positionUpdate_of_scanning idx stale hs hx, hc, if_neg (by decide), hd, decide_eq_false (not_not.2 rfl)]
  unfold MeasuringPoint.approach
  rw [hturn]
  rfl

end

/-- Settles O22: a suspension, by either cause, is one operation. -/
theorem suspensionByLossOrRange : Obligations.SuspensionByLossOrRange := by
  refine ⟨fun m stale lost => ⟨fun hs ⟨a, hc, hl⟩ => ?_, fun h => ?_⟩, fun m chs idx stale hs hx => ?_⟩
  · rcases m.takeLoss_cases stale lost with ⟨_, _, e⟩ | ⟨hq, _⟩
    · rw [e]
      exact suspend_closed m stale .axisLost
    · rcases hq with hq | hq
      · rw [m.running_iff.2 hs] at hq
        cases hq
      · rw [hq a ((m.contributes_iff a).2 hc)] at hl
        cases hl
  · rcases m.takeLoss_cases stale lost with ⟨hr, ⟨a, hc, hl⟩, _⟩ | ⟨_, e⟩
    · rcases h with ⟨h1, h2⟩ | h
      · exact ((m.running_iff.1 hr).elim h1 h2).elim
      · rw [h a ((m.contributes_iff a).1 hc)] at hl
        cases hl
    · exact e
  · rw [positionUpdate_of_outOfRange idx stale hs hx]
    exact suspend_closed _ stale .range

/-! ### Triggers (R112, R113) -/

theorem triggerReached_iff (dir : Travel) (position x : Int) :
    triggerReached dir position x = true ↔ (dir = .forward ∧ position ≤ x) ∨ (dir = .reverse ∧ x ≤ position) := by
  cases dir <;> simp [triggerReached]

theorem triggerReached_eq_false_iff (dir : Travel) (position x : Int) :
    triggerReached dir position x = false ↔ ¬((dir = .forward ∧ position ≤ x) ∨ (dir = .reverse ∧ x ≤ position)) := by
  rw [← triggerReached_iff, Bool.not_eq_true]

section
variable {m : MeasuringPoint} {d : Designation} {dir : Travel} {tr : Option TriggerPoint}

/-- The trigger of an ARMED cursor fires at this X (R112). -/
def Fires (tr : Option TriggerPoint) (dir : Travel) (x : Int) : Prop :=
  ∃ tp, tr = some tp ∧ tp.fired = false ∧ ((dir = .forward ∧ tp.position ≤ x) ∨ (dir = .reverse ∧ x ≤ tp.position))

theorem triggerTest_of_fires (hc : m.cursor = .armed d dir tr) (h : Fires tr dir m.x) :
    ∃ tp, tr = some tp ∧
      m.triggerTest = { m with cursor := .armed d dir (some { tp with fired := true }), trg := true, trgLeft := 80 } := by
  obtain ⟨tp, rfl, hf, hr⟩ := h
  refine ⟨tp, rfl, ?_⟩
  unfold MeasuringPoint.triggerTest
  rw [hc]
  simp [hf, (triggerReached_iff dir tp.position m.x).2 hr]

theorem triggerTest_of_not_fires (hc : m.cursor = .armed d dir tr) (h : ¬Fires tr dir m.x) : m.triggerTest = m := by
  rcases m.triggerTest_cases with e | ⟨d', dir', t, hc', hf, hr, _⟩
  · exact e
  · rw [hc] at hc'
    cases hc'
    exact absurd ⟨t, rfl, hf, (triggerReached_iff _ _ _).1 hr⟩ h

theorem triggerTest_of_not_armed (h : ∀ d dir tr, m.cursor ≠ .armed d dir tr) : m.triggerTest = m := by
  rcases m.triggerTest_cases with e | ⟨d, dir, t, hc, _⟩
  · exact e
  · exact absurd hc (h d dir _)

/-- A second trigger test at the same X finds nothing left to fire. -/
theorem triggerTest_triggerTest (m : MeasuringPoint) : m.triggerTest.triggerTest = m.triggerTest := by
  rcases m.triggerTest_cases with e | ⟨d, dir, t, _, _, _, e⟩
  · rw [e, e]
  · rw [e]
    refine triggerTest_of_not_fires (d := d) (dir := dir) (tr := some { t with fired := true }) rfl ?_
    rintro ⟨tp, ht, hf, _⟩
    cases ht
    cases hf

/-- A new arming fires its trigger at once, or leaves it for a later X (R107, R112). -/
theorem arm_of_fires {it : IndexItem} {tp : TriggerPoint} (ht : triggerPointOf it dir m.config.lead = some tp)
    (h : Fires (some tp) dir m.x) :
    m.arm it dir =
      { m with cursor := .armed it.designation dir (some { tp with fired := true }), trg := true, trgLeft := 80 } := by
  obtain ⟨t, e, h⟩ := triggerTest_of_fires
    (m := { m with cursor := .armed it.designation dir (triggerPointOf it dir m.config.lead) }) rfl (by rw [ht]; exact h)
  rw [ht] at e
  cases e
  exact h

theorem arm_of_not_fires {it : IndexItem} (h : ¬Fires (triggerPointOf it dir m.config.lead) dir m.x) :
    m.arm it dir = { m with cursor := .armed it.designation dir (triggerPointOf it dir m.config.lead) } :=
  triggerTest_of_not_fires
    (m := { m with cursor := .armed it.designation dir (triggerPointOf it dir m.config.lead) }) rfl h

end

/-! ### Seeks (R105 to R107, R111) -/

theorem eligible_iff (sc : Scan) (it : IndexItem) :
    eligible sc it = true ↔
      sc.first ≤ it.key ∧ it.key ≤ sc.last ∧ (∃ k, it.key = sc.first + k * sc.stride) ∧ it.hold = false := by
  simp only [eligible, Bool.and_eq_true, decide_eq_true_eq, Bool.not_eq_true', and_assoc]
  refine and_congr_right fun hf => and_congr_right fun _ => and_congr_left fun _ => ?_
  constructor
  · intro hm
    obtain ⟨k, hk⟩ := Nat.dvd_of_mod_eq_zero hm
    exact ⟨k, by rw [Nat.mul_comm k]; omega⟩
  · rintro ⟨k, hk⟩
    rw [hk, Nat.add_sub_cancel_left, Nat.mul_mod_left]

theorem ahead_iff (dir : Travel) (x : Int) (it : IndexItem) :
    ahead dir x it = true ↔ (dir = .forward ∧ x < it.lower) ∨ (dir = .reverse ∧ it.upper < x) := by
  cases dir <;> simp [ahead]

theorem sameArming_iff (c : Cursor) (dir : Travel) (it : IndexItem) :
    c.sameArming it dir = true ↔ ∃ d tr, c = .armed d dir tr ∧ d.slot = it.slot ∧ d.revision = it.revision := by
  cases c with
  | armed d dir' tr =>
    simp only [Cursor.sameArming, decide_eq_true_eq, Cursor.armed.injEq]
    constructor
    · rintro ⟨hs, hr, rfl⟩
      exact ⟨d, tr, ⟨rfl, rfl, rfl⟩, hs, hr⟩
    · rintro ⟨d', tr', ⟨rfl, rfl, rfl⟩, hs, hr⟩
      exact ⟨hs, hr, rfl⟩
  | _ => simp [Cursor.sameArming]

/-- The first element that meets a test comes before every other that does. -/
theorem eq_or_rel_of_find? {α : Type} {R : α → α → Prop} {p : α → Bool} {l : List α} {a x : α} (h : l.Pairwise R)
    (hf : l.find? p = some a) (hx : x ∈ l) (hp : p x = true) : x = a ∨ R a x := by
  obtain ⟨_, as, bs, rfl, hno⟩ := List.find?_eq_some_iff_append.1 hf
  rcases List.mem_append.1 hx with hx | hx
  · have := hno x hx
    rw [hp] at this
    cases this
  · rcases List.mem_cons.1 hx with rfl | hx
    · exact .inl rfl
    · exact .inr ((List.pairwise_cons.1 (List.pairwise_append.1 h).2.1).1 x hx)

section
variable {m : MeasuringPoint} {idx : List IndexItem}

/-- The nearest eligible entry ahead is the one the index finds by key (R79, R106). -/
theorem seekTarget_eq_some (ho : IndexOrdered idx) (hw : ∀ it ∈ idx, it.lower ≤ it.upper) {it : IndexItem} {dir : Travel}
    (hit : it ∈ idx) (hd : m.direction = some dir) (he : eligible m.scan it = true) (ha : ahead dir m.x it = true)
    (hnear : ∀ o ∈ idx, eligible m.scan o = true → ahead dir m.x o = true →
      (dir = .forward → it.lower ≤ o.lower) ∧ (dir = .reverse → o.upper ≤ it.upper)) :
    m.seekTarget idx = some (it, dir) := by
  cases ht : m.seekTarget idx with
  | none =>
    have := MeasuringPoint.seekTarget_none ht hd it hit
    rw [he, ha] at this
    cases this
  | some v =>
    obtain ⟨o, dir'⟩ := v
    obtain ⟨hmem, heo, hao, hd'⟩ := MeasuringPoint.seekTarget_some ht
    rw [hd] at hd'
    cases hd'
    obtain ⟨hlow, hup⟩ := hnear o hmem heo hao
    have hwo := hw o hmem
    have hwi := hw it hit
    unfold MeasuringPoint.seekTarget at ht
    rw [hd] at ht
    cases dir with
    | forward =>
      obtain ⟨a, hfind, hpair⟩ := Option.map_eq_some_iff.1 ht
      cases hpair
      rcases eq_or_rel_of_find? ho hfind hit (by rw [he, ha]; rfl) with rfl | ⟨_, hlt⟩
      · rfl
      · have := hlow rfl
        omega
    | reverse =>
      obtain ⟨a, hfind, hpair⟩ := Option.map_eq_some_iff.1 ht
      cases hpair
      rcases eq_or_rel_of_find? (List.pairwise_reverse.2 ho) hfind (List.mem_reverse.2 hit) (by rw [he, ha]; rfl) with
        rfl | ⟨_, hlt⟩
      · rfl
      · have := hup rfl
        omega

/-- Nothing is designated with direction NONE, or with nothing eligible ahead (R106). -/
theorem seekTarget_eq_none (h : m.direction = none ∨
    ∃ dir, m.direction = some dir ∧ ∀ it ∈ idx, ¬(eligible m.scan it = true ∧ ahead dir m.x it = true)) :
    m.seekTarget idx = none := by
  cases ht : m.seekTarget idx with
  | none => rfl
  | some v =>
    obtain ⟨hmem, he, ha, hd⟩ := MeasuringPoint.seekTarget_some ht
    rcases h with h | ⟨dir, h, hno⟩
    · rw [hd] at h
      cases h
    · rw [hd] at h
      cases h
      exact absurd ⟨he, ha⟩ (hno _ hmem)

theorem seek_of_target {it : IndexItem} {dir : Travel} (h : m.seekTarget idx = some (it, dir)) :
    m.seek idx = .quiet (if m.cursor.sameArming it dir = true then m else m.arm it dir) := by
  unfold MeasuringPoint.seek
  rw [h]

theorem seek_of_none (h : m.seekTarget idx = none) :
    m.seek idx = { point := { m with cursor := .atEnd }, events := if m.cursor = .atEnd then [] else [.scanEnd] } := by
  unfold MeasuringPoint.seek
  rw [h]

end

theorem triggerPointOf_eq (it : IndexItem) (dir : Travel) (lead : Nat) (h : it.trigger = true) :
    triggerPointOf it dir lead =
      some { position := if dir = .forward then it.lower - (lead : Int) else it.upper + (lead : Int), fired := false } := by
  cases dir <;> simp [triggerPointOf, h]

/-- Settles O23: the order of the index makes the item found first the nearest, and its arming is tested at once. -/
theorem seekDesignatesTheNearestEligibleAhead : Obligations.SeekDesignatesTheNearestEligibleAhead := by
  refine ⟨fun sc it _ => eligible_iff sc it, ahead_iff, sameArming_iff, fun m idx ho hw => ⟨?_, fun h => ?_⟩⟩
  · intro it hit dir hd he ha hnear trigger reached d
    have hseek := seek_of_target (seekTarget_eq_some ho hw hit hd he ha hnear)
    have hfresh : m.cursor.sameArming it dir = false → m.seek idx = .quiet (m.arm it dir) := fun hs => by
      rw [hseek, if_neg (by rw [hs]; decide)]
    have hpoint : it.trigger = true →
        triggerPointOf it dir m.config.lead = some { position := trigger, fired := false } :=
      triggerPointOf_eq it dir m.config.lead
    refine ⟨fun hs => ?_, fun hs ht => ?_, fun hs ht hr => ?_, fun hs ht hr => ?_⟩
    · rw [hseek, if_pos hs]
      rfl
    · have hnone : triggerPointOf it dir m.config.lead = none := by simp [triggerPointOf, ht]
      rw [hfresh hs, arm_of_not_fires (by rw [hnone]; rintro ⟨tp, h, _⟩; cases h), hnone]
      rfl
    · rw [hfresh hs, arm_of_not_fires (by rw [hpoint ht]; rintro ⟨tp, h, _, hf⟩; cases h; exact hr hf), hpoint ht]
      rfl
    · rw [hfresh hs, arm_of_fires (hpoint ht) ⟨_, rfl, rfl, hr⟩]
      rfl
  · exact seek_of_none (seekTarget_eq_none h)

/-! ### Handed edits (R109) -/

section
variable {m : MeasuringPoint} {key : Nat} {before after : Option IndexItem}

theorem eligibleAhead_iff {dir : Travel} (h : m.direction = some dir) (it : IndexItem) :
    m.eligibleAhead it = true ↔ eligible m.scan it = true ∧ ahead dir m.x it = true := by
  simp [MeasuringPoint.eligibleAhead, h]

/-- One of the edit's items is eligible and ahead. -/
theorem any_eligibleAhead_iff {dir : Travel} (h : m.direction = some dir) :
    (before.any m.eligibleAhead || after.any m.eligibleAhead) = true ↔
      ∃ it, (before = some it ∨ after = some it) ∧ eligible m.scan it = true ∧ ahead dir m.x it = true := by
  simp only [Bool.or_eq_true, Option.any_eq_true, eligibleAhead_iff h]
  constructor
  · rintro (⟨it, hi, h⟩ | ⟨it, hi, h⟩)
    · exact ⟨it, .inl hi, h⟩
    · exact ⟨it, .inr hi, h⟩
  · rintro ⟨it, hi | hi, h⟩
    · exact .inl ⟨it, hi, h⟩
    · exact .inr ⟨it, hi, h⟩

theorem handEdit_of_seeks (idx : List IndexItem) (h : m.editSeeks key before after = true) :
    m.handEdit idx key before after = m.seek idx := if_pos h

theorem handEdit_of_not_seeks (idx : List IndexItem) (h : m.editSeeks key before after = false) :
    m.handEdit idx key before after = { point := m, events := [] } := by
  unfold MeasuringPoint.handEdit
  rw [h]
  rfl

theorem editSeeks_of_atEnd (hs : m.state = .scanning) (hc : m.cursor = .atEnd) :
    m.editSeeks key before after = (before.any m.eligibleAhead || after.any m.eligibleAhead) := by
  simp [MeasuringPoint.editSeeks, hs, hc]

theorem editSeeks_of_armed {d : Designation} {dir : Travel} {tr : Option TriggerPoint} (hs : m.state = .scanning)
    (hc : m.cursor = .armed d dir tr) :
    m.editSeeks key before after =
      (decide (d.key = key) || (before.any m.eligibleAhead || after.any m.eligibleAhead) && m.keyBefore key d.key) := by
  by_cases hk : d.key = key <;> simp [MeasuringPoint.editSeeks, hs, hc, hk]

theorem keyBefore_eq {dir : Travel} (h : m.direction = some dir) (designated : Nat) :
    m.keyBefore key designated = decide (if dir = .forward then key < designated else designated < key) := by
  cases dir <;> simp [MeasuringPoint.keyBefore, h]

end

/-- Settles O24, by the rows of the table of R109. -/
theorem handedEditSeeksAsTheTableSays : Obligations.HandedEditSeeksAsTheTableSays := by
  intro m idx key before after
  refine ⟨fun hs => ?_, fun ho => ?_, fun hc hd => ?_, fun hs hc dir hd => ⟨fun h => ?_, fun h => ?_⟩,
    fun hs d dir tr hc hd => ⟨fun hk => ?_, fun hk h hf hr => ?_, fun hk h => ?_⟩⟩
  · exact handEdit_of_not_seeks idx (by simp [MeasuringPoint.editSeeks, hs])
  · obtain ⟨d, dir, r, hc⟩ := m.passOpen_iff.1 ho
    exact handEdit_of_not_seeks idx (by simp [MeasuringPoint.editSeeks, hc])
  · refine handEdit_of_not_seeks idx ?_
    have hno : m.eligibleAhead = fun _ => false := funext fun it => by simp [MeasuringPoint.eligibleAhead, hd]
    simp [MeasuringPoint.editSeeks, hc, hno]
  · exact handEdit_of_seeks idx (by rw [editSeeks_of_atEnd hs hc, any_eligibleAhead_iff hd]; exact h)
  · refine handEdit_of_not_seeks idx ?_
    rw [editSeeks_of_atEnd hs hc, ← Bool.not_eq_true, any_eligibleAhead_iff hd]
    exact h
  · exact handEdit_of_seeks idx (by rw [editSeeks_of_armed hs hc, decide_eq_true hk]; rfl)
  · refine handEdit_of_seeks idx ?_
    rw [editSeeks_of_armed hs hc, (any_eligibleAhead_iff hd).2 h, keyBefore_eq hd]
    cases dir
    · simp [hf rfl]
    · simp [hr rfl]
  · refine handEdit_of_not_seeks idx ?_
    rw [editSeeks_of_armed hs hc, decide_eq_false hk, Bool.false_or, Bool.and_eq_false_iff]
    rcases h with h | ⟨rfl, h⟩ | ⟨rfl, h⟩
    · exact .inl (by rw [← Bool.not_eq_true, any_eligibleAhead_iff hd]; exact h)
    · exact .inr (by rw [keyBefore_eq hd]; simp; omega)
    · exact .inr (by rw [keyBefore_eq hd]; simp; omega)

end Sys2Proof.Proofs.Windows

/-! The updates of a SCANNING point at and around its window (R108, R113, R115 to R125). -/

namespace Sys2Proof.Proofs.Windows

open Sys2Proof.Machine

/-! ### The opening and the closing test (R116, R117, R119) -/

section
variable {m : MeasuringPoint} {d : Designation} {dir : Travel} {tr : Option TriggerPoint} {r : OpenPass}
  (idx : List IndexItem) (stale : Bool)

theorem openingTest_of_inside (hc : m.cursor = .armed d dir tr) (h : d.lower ≤ m.x ∧ m.x ≤ d.upper) :
    m.openingTest idx stale = .quiet (m.openWindow idx d dir) := by
  simp [MeasuringPoint.openingTest, hc, inside, h]

theorem crossed_iff (prevX x : Int) :
    crossed d dir prevX x = true ↔
      (dir = .forward ∧ prevX < d.lower ∧ d.upper < x) ∨ (dir = .reverse ∧ d.upper < prevX ∧ x < d.lower) := by
  cases dir <;> simp [crossed]

theorem openingTest_of_crossed (hc : m.cursor = .armed d dir tr)
    (h : (dir = .forward ∧ m.prevX < d.lower ∧ d.upper < m.x) ∨ (dir = .reverse ∧ d.upper < m.prevX ∧ m.x < d.lower)) :
    m.openingTest idx stale = (m.openWindow idx d dir).closeScanning idx stale .jumped (m.newPass idx d dir) := by
  have hout : inside d.lower d.upper m.x = false := by
    simp only [inside, decide_eq_false_iff_not]
    omega
  simp [MeasuringPoint.openingTest, hc, hout, (crossed_iff m.prevX m.x).2 h]

/-- X on the near side of the window leaves it ARMED (R117). -/
theorem openingTest_of_short (hc : m.cursor = .armed d dir tr) (hw : d.lower ≤ d.upper)
    (h : (dir = .forward ∧ m.x < d.lower) ∨ (dir = .reverse ∧ d.upper < m.x)) :
    m.openingTest idx stale = .quiet m := by
  have hout : inside d.lower d.upper m.x = false := by
    simp only [inside, decide_eq_false_iff_not]
    omega
  have hno : crossed d dir m.prevX m.x = false := by
    rw [← Bool.not_eq_true, crossed_iff]
    rcases h with ⟨rfl, h⟩ | ⟨rfl, h⟩
    · rintro (⟨_, _, g⟩ | ⟨g, _⟩)
      · omega
      · cases g
    · rintro (⟨g, _⟩ | ⟨_, _, g⟩)
      · cases g
      · omega
  simp [MeasuringPoint.openingTest, hc, hout, hno]

theorem openingTest_of_not_armed (h : ∀ d dir tr, m.cursor ≠ .armed d dir tr) : m.openingTest idx stale = .quiet m := by
  unfold MeasuringPoint.openingTest
  split
  · next d dir tr hc => exact absurd hc (h d dir tr)
  all_goals rfl

theorem closingTest_of_inside (hc : m.cursor = .opened d dir r) (h : d.lower ≤ m.x ∧ m.x ≤ d.upper) :
    m.closingTest idx stale = .quiet m := by
  simp [MeasuringPoint.closingTest, hc, not_lt.2 h.1, not_lt.2 h.2]

theorem closingTest_of_outside (hc : m.cursor = .opened d dir r) (hw : d.lower ≤ d.upper) {side : Side}
    (h : (side = .low ∧ m.x < d.lower) ∨ (side = .high ∧ d.upper < m.x)) :
    m.closingTest idx stale = m.closeScanning idx stale (.exit side) r := by
  unfold MeasuringPoint.closingTest
  rw [hc]
  dsimp only
  rcases h with ⟨rfl, h⟩ | ⟨rfl, h⟩
  · rw [if_pos h]
  · rw [if_neg (by omega), if_pos h]

theorem newPass_eq {dr : Travel} {it : IndexItem} (hd : m.direction = some dr) (hi : findSlot idx d.slot = some it) :
    m.newPass idx d dir =
      { slot := d.slot, revision := it.revision, entrySide := if dr = .forward then .low else .high, direction := dr,
        tally := 0, firstX := none, split := false } := by
  cases dr <;> simp [MeasuringPoint.newPass, hd, hi, entrySideOf]

/-- The record that a window opens with (R116). -/
def freshPass (slot revision : Nat) (dr : Travel) : OpenPass :=
  { slot := slot, revision := revision, entrySide := if dr = .forward then .low else .high, direction := dr,
    tally := 0, firstX := none, split := false }

theorem openWindow_eq {dr : Travel} {it : IndexItem} (hd : m.direction = some dr) (hi : findSlot idx d.slot = some it) :
    m.openWindow idx d dir =
      { m with cursor := .opened { d with revision := it.revision } dir (freshPass d.slot it.revision dr) } := by
  unfold MeasuringPoint.openWindow
  rw [newPass_eq idx hd hi]
  rfl

theorem openingTest_opens {dr : Travel} {it : IndexItem} (hc : m.cursor = .armed d dir tr)
    (h : d.lower ≤ m.x ∧ m.x ≤ d.upper) (hd : m.direction = some dr) (hi : findSlot idx d.slot = some it) :
    m.openingTest idx stale =
      { point := { m with cursor := .opened { d with revision := it.revision } dir (freshPass d.slot it.revision dr) }
        events := [] } := by
  rw [openingTest_of_inside idx stale hc h, openWindow_eq idx hd hi]
  rfl

/-- A pass that opens by a crossing closes at once, and no strobe of it is in progress (R117). -/
theorem openingTest_jumps {dr : Travel} {it : IndexItem} (hc : m.cursor = .armed d dir tr)
    (h : (dir = .forward ∧ m.prevX < d.lower ∧ d.upper < m.x) ∨ (dir = .reverse ∧ d.upper < m.prevX ∧ m.x < d.lower))
    (hd : m.direction = some dr) (hi : findSlot idx d.slot = some it) (hp : m.tracker.inProgress = false) :
    OfferedAtClose { m with cursor := .opened { d with revision := it.revision } dir (freshPass d.slot it.revision dr) } idx
      { slot := d.slot, revision := it.revision, direction := dr, outcome := .jumped, stale := stale }
      (m.openingTest idx stale) := by
  have hpulse : m.tracker.atClose = m.tracker := by rw [atClose_eq, hp]; rfl
  have hoffer := closeScanning_offered
    { m with cursor := .opened { d with revision := it.revision } dir (freshPass d.slot it.revision dr) } idx stale .jumped
    (freshPass d.slot it.revision dr)
  dsimp only at hoffer
  rw [hpulse] at hoffer
  rw [openingTest_of_crossed idx stale hc h, openWindow_eq idx hd hi, newPass_eq idx hd hi]
  exact hoffer

end

theorem passOpen_of_armed {m : MeasuringPoint} {d : Designation} {dir : Travel} {tr : Option TriggerPoint}
    (h : m.cursor = .armed d dir tr) : m.passOpen = false := by
  simp [MeasuringPoint.passOpen, h]

theorem passOpen_of_atEnd {m : MeasuringPoint} (h : m.cursor = .atEnd) : m.passOpen = false := by
  simp [MeasuringPoint.passOpen, h]

/-- Settles O25: the trigger test leaves the window ARMED, fired or not, and the opening test opens it. -/
theorem updateInsideTheArmedWindowOpensIt : Obligations.UpdateInsideTheArmedWindowOpensIt := by
  intro m chs idx stale d dir dr tr it hs hc hx hturn hd hi hlow hup u fires opened
  have hdir : u.direction = some dr := hturn.trans hd
  have hcur : u.cursor = .armed d dir tr := hc
  rw [positionUpdate_of_straight idx stale hs (passOpen_of_armed hc) hx hturn]
  refine ⟨fun hf => ?_, fun hf => ?_⟩
  · obtain ⟨tp, _, e⟩ := triggerTest_of_fires hcur hf
    rw [e]
    exact openingTest_opens idx stale (tr := some { tp with fired := true }) rfl ⟨hlow, hup⟩ hdir hi
  · rw [triggerTest_of_not_fires hcur hf]
    exact openingTest_opens idx stale hcur ⟨hlow, hup⟩ hdir hi

/-- Settles O26: the pass that the crossing opens is closed as JUMPED and offered. -/
theorem updateAcrossTheArmedWindowJumpsIt : Obligations.UpdateAcrossTheArmedWindowJumpsIt := by
  intro m chs idx stale d dir dr tr it hs hc hp hx hturn hd hi hw hcross u fires record
  have hdir : u.direction = some dr := hturn.trans hd
  have hcur : u.cursor = .armed d dir tr := hc
  rw [positionUpdate_of_straight idx stale hs (passOpen_of_armed hc) hx hturn]
  refine ⟨_, ⟨{ d with revision := it.revision }, freshPass d.slot it.revision dr, rfl⟩, fun hf => ?_, fun hf => ?_⟩
  · obtain ⟨tp, _, e⟩ := triggerTest_of_fires hcur hf
    rw [e]
    exact openingTest_jumps
      (m := { u with cursor := .armed d dir (some { tp with fired := true }), trg := true, trgLeft := 80 }) idx stale rfl
      hcross hdir hi hp
  · rw [triggerTest_of_not_fires hcur hf]
    exact openingTest_jumps idx stale hcur hcross hdir hi hp

/-! ### A seek at a turn (R108) -/

/-- An entry that a seek arms anew is ahead of X, so the tests behind the seek change nothing (R115). -/
theorem openingTest_of_sought {m : MeasuringPoint} {idx : List IndexItem} {dir : Travel} (stale : Bool)
    (hd : m.direction = some dir) (hw : ∀ it ∈ idx, it.lower ≤ it.upper)
    (hs : ∀ it, m.cursor.sameArming it dir = false) :
    (m.seek idx).point.triggerTest.openingTest idx stale = .quiet (m.seek idx).point := by
  cases ht : m.seekTarget idx with
  | none =>
    rw [seek_of_none ht]
    have hno : ∀ d dir' tr, { m with cursor := .atEnd }.cursor ≠ .armed d dir' tr := nofun
    rw [triggerTest_of_not_armed hno, openingTest_of_not_armed idx stale hno]
  | some v =>
    obtain ⟨it, dir'⟩ := v
    obtain ⟨hmem, _, ha, hd'⟩ := MeasuringPoint.seekTarget_some ht
    rw [hd] at hd'
    cases hd'
    have harm : (m.seek idx).point = m.arm it dir := by
      rw [seek_of_target ht, hs it, if_neg (by decide)]
      rfl
    have hidem : (m.arm it dir).triggerTest = m.arm it dir := triggerTest_triggerTest _
    obtain ⟨tr, g, n, e⟩ := m.arm_frame it dir
    rw [harm, hidem, e]
    exact openingTest_of_short idx stale (d := it.designation) rfl (hw it hmem) ((ahead_iff dir m.x it).1 ha)

/-- Settles O27: the tests that an update makes find nothing to open or close; after a turn only the seek acts. -/
theorem updateShortOfAWindowOrTurning : Obligations.UpdateShortOfAWindowOrTurning := by
  refine ⟨?_, fun m chs idx stale hx h => ?_,     fun m chs idx stale dir hs hc hx hd hturn hw => ?_⟩
  · intro m chs idx stale d dir hs hw hx u
    refine ⟨fun r hc hlow hup => ?_, fun tr hc hturn hshort => ⟨?_, ?_⟩⟩
    · rw [positionUpdate_of_opened idx stale hs hc hx]
      exact closingTest_of_inside idx stale hc ⟨hlow, hup⟩
    · intro tp ht hf hfor hrev
      have hfires : Fires tr dir u.x := ⟨tp, ht, hf, by
        cases dir with
        | forward => exact .inl ⟨rfl, hfor rfl⟩
        | reverse => exact .inr ⟨rfl, hrev rfl⟩⟩
      obtain ⟨tp', ht', e⟩ := triggerTest_of_fires (m := u) hc hfires
      rw [ht] at ht'
      cases ht'
      rw [positionUpdate_of_straight idx stale hs (passOpen_of_armed hc) hx hturn, e]
      exact openingTest_of_short
        (m := { u with cursor := .armed d dir (some { tp with fired := true }), trg := true, trgLeft := 80 }) idx stale rfl
        hw hshort
    · intro hno
      have hquiet : ¬Fires tr dir u.x := by
        rintro ⟨tp, ht, hf, h⟩
        rcases hno tp ht with g | ⟨rfl, g⟩ | ⟨rfl, g⟩
        · rw [hf] at g; cases g
        · rcases h with ⟨_, h⟩ | ⟨h, _⟩
          · omega
          · cases h
        · rcases h with ⟨h, _⟩ | ⟨_, h⟩
          · cases h
          · omega
      rw [positionUpdate_of_straight idx stale hs (passOpen_of_armed hc) hx hturn,
        triggerTest_of_not_fires (m := u) hc hquiet]
      exact openingTest_of_short idx stale hc hw hshort
  · rcases h with h | ⟨hs, hc, hturn⟩
    · exact positionUpdate_of_halted idx stale h hx
    · have hno : ∀ d dir' tr, (m.formUpdate chs).cursor ≠ .armed d dir' tr := fun d dir' tr h => by
        have h : m.cursor = .armed d dir' tr := h
        rw [hc] at h
        cases h
      rw [positionUpdate_of_straight idx stale hs (passOpen_of_atEnd hc) hx hturn, triggerTest_of_not_armed hno]
      exact openingTest_of_not_armed idx stale hno
  · have hclosed : m.passOpen = false := by
      rcases hc with hc | ⟨d, dir', tr, hc, _⟩
      · exact passOpen_of_atEnd hc
      · exact passOpen_of_armed hc
    have hnew : ∀ it, (m.formUpdate chs).cursor.sameArming it dir = false := fun it => by
      rw [← Bool.not_eq_true, sameArming_iff]
      rintro ⟨d, tr, h, _⟩
      have h : m.cursor = .armed d dir tr := h
      rcases hc with hc | ⟨d', dir', tr', hc, hne⟩
      · rw [hc] at h; cases h
      · rw [hc] at h; cases h; exact hne rfl
    have hseek : (m.formUpdate chs).turnSeek idx true = (m.formUpdate chs).seek idx := by
      have hcur : (m.formUpdate chs).cursor = m.cursor := rfl
      unfold MeasuringPoint.turnSeek
      rcases hc with hc | ⟨d', dir', tr', hc, _⟩ <;> rw [hcur, hc] <;> rfl
    rw [positionUpdate_of_scanning idx stale hs hx, hclosed, if_neg (by decide), hd,
      decide_eq_true hturn.symm]
    unfold MeasuringPoint.approach
    rw [hseek]
    dsimp only
    rw [openingTest_of_sought stale hd hw hnew]
    exact congrArg (PointResult.mk _) (List.append_nil _)

/-- Settles O28: the closing test closes the pass by the side it left at, and the outcome is that of the table of R121. -/
theorem updateOutsideTheOpenWindowClosesThePass : Obligations.UpdateOutsideTheOpenWindowClosesThePass := by
  intro m chs idx stale d dir r side x hs hc hw hfirst hx hout inProgress
  rw [positionUpdate_of_opened idx stale hs hc hx, closingTest_of_outside (m := m.formUpdate chs) idx stale hc hw hout,
    ← Passes.tallied_eq_rows hfirst, ← Passes.outcome_exit, ← atClose_eq]
  exact closeScanning_offered (m.formUpdate chs) idx stale (.exit side) r

end Sys2Proof.Proofs.Windows

/-! Strobes and trigger pulses (R52 to R60, R114). -/

namespace Sys2Proof.Proofs.Strobes

open Sys2Proof.Machine

/-! ### The line and the open pass -/

section
variable {m : MeasuringPoint}

/-- The level that an enabled point samples, it keeps (R52). -/
theorem setLine_of_enabled (h : m.state ≠ .disabled) (level : Bool) :
    m.setLine level = { m with stb := level, stbKept := level } := by
  simp [MeasuringPoint.setLine, MeasuringPoint.enabled, h]

theorem setLine_of_disabled (h : m.state = .disabled) (level : Bool) : m.setLine level = { m with stb := level } := by
  simp [MeasuringPoint.setLine, MeasuringPoint.enabled, h]

theorem addStrobe_of_opened {d : Designation} {dir : Travel} {r : OpenPass} (h : m.cursor = .opened d dir r) (x : Int) :
    m.addStrobe x = { m with cursor := .opened d dir (withStrobe r x) } := by
  unfold MeasuringPoint.addStrobe
  rw [h]
  dsimp only [OpenPass.tallyStrobe, withStrobe]
  rw [bump8_eq_min]

/-! ### A leading edge found in NO_PULSE (R55 to R57) -/

variable (chs : Axes Channel)

theorem beginPulse_of_closed (h : m.passOpen = false) :
    m.beginPulse chs =
      { m with
        tracker := .settling, counters := { m.counters with stray := min 65535 (m.counters.stray + 1) } } := by
  simp [MeasuringPoint.beginPulse, h, MeasuringPoint.countStray, MeasuringPoint.setTracker, bump16_eq_min]

theorem beginPulse_of_held (h : m.passOpen = true) (hh : m.axisHeld chs = true) :
    m.beginPulse chs =
      { m with
        tracker := .settling
        counters := { m.counters with heldStrobe := min 65535 (m.counters.heldStrobe + 1) } } := by
  simp [MeasuringPoint.beginPulse, h, hh, MeasuringPoint.countHeld, MeasuringPoint.setTracker, bump16_eq_min]

theorem beginPulse_of_complete (h : m.passOpen = true) (hh : m.axisHeld chs = false) (hm : m.config.mode.isCentre = false)
    (hw : m.config.minPeriods ≤ 1) : m.beginPulse chs = (m.addStrobe (m.latch chs)).setTracker .settling := by
  simp [MeasuringPoint.beginPulse, h, hh, hm, hw]

theorem beginPulse_of_latched (h : m.passOpen = true) (hh : m.axisHeld chs = false)
    (hm : m.config.mode.isCentre = true ∨ 2 ≤ m.config.minPeriods) :
    m.beginPulse chs = { m with tracker := .qualifying (m.latch chs) 1 } := by
  have hno : (!m.config.mode.isCentre && decide (m.config.minPeriods ≤ 1)) = false := by
    rcases hm with hm | hm
    · simp [hm]
    · simp only [Bool.and_eq_false_iff, decide_eq_false_iff_not]
      exact .inr (by omega)
  simp [MeasuringPoint.beginPulse, h, hh, hno, MeasuringPoint.setTracker]

theorem leadingEdge_of_disabled (h : m.state = .disabled) :
    m.leadingEdge chs = { m with stb := m.config.mode.activeLevel } := by
  have hoff : ∀ level, ({ m with stb := level } : MeasuringPoint).enabled = false := fun level => by
    simp [MeasuringPoint.enabled, h]
  unfold MeasuringPoint.leadingEdge
  rw [setLine_of_disabled h]
  dsimp only
  rw [hoff, if_neg (by decide)]

/-- An enabled point's leading edge acts in NO_PULSE alone (R53). -/
theorem leadingEdge_of_enabled (h : m.state ≠ .disabled) :
    m.leadingEdge chs =
      if m.tracker = .noPulse then
        { m with stb := m.config.mode.activeLevel, stbKept := m.config.mode.activeLevel }.beginPulse chs
      else { m with stb := m.config.mode.activeLevel, stbKept := m.config.mode.activeLevel } := by
  have hon : ∀ level, ({ m with stb := level, stbKept := level } : MeasuringPoint).enabled = true := fun level =>
    (MeasuringPoint.enabled_iff _).2 h
  unfold MeasuringPoint.leadingEdge
  rw [setLine_of_enabled h]
  dsimp only
  rw [hon, if_pos rfl]
  cases m.tracker <;> simp

/-! ### The end of a pulse (R57 to R59) -/

theorem trailingEdge_of_disabled (active : Nat) (h : m.state = .disabled) :
    m.trailingEdge chs active = { m with stb := !m.config.mode.activeLevel } := by
  have hoff : ∀ level, ({ m with stb := level } : MeasuringPoint).enabled = false := fun level => by
    simp [MeasuringPoint.enabled, h]
  unfold MeasuringPoint.trailingEdge
  rw [setLine_of_disabled h]
  dsimp only
  rw [hoff, if_neg (by decide)]

/-- The line as an enabled point keeps it at a trailing edge (R52). -/
def lineEnded (m : MeasuringPoint) : MeasuringPoint :=
  { m with stb := !m.config.mode.activeLevel, stbKept := !m.config.mode.activeLevel }

/-- An enabled point's trailing edge, by the tracker (R53). -/
theorem trailingEdge_of_enabled (active : Nat) (h : m.state ≠ .disabled) :
    (m.tracker = .noPulse → m.trailingEdge chs active = lineEnded m) ∧
      (∀ latched n, m.tracker = .qualifying latched n →
        m.trailingEdge chs active = (lineEnded m).endPulse chs latched active) ∧
      (m.tracker = .settling → m.trailingEdge chs active = (lineEnded m).setTracker .noPulse) := by
  have hon : (lineEnded m).enabled = true := (MeasuringPoint.enabled_iff _).2 h
  have htr : (lineEnded m).tracker = m.tracker := rfl
  have hline : m.setLine (!m.config.mode.activeLevel) = lineEnded m := setLine_of_enabled h _
  unfold MeasuringPoint.trailingEdge
  rw [hline]
  dsimp only
  rw [hon, if_pos rfl]
  refine ⟨fun ht => ?_, fun latched n ht => ?_, fun ht => ?_⟩ <;> rw [htr, ht]

theorem endPulse_of_glitch (latched : Int) {active : Nat} (h : active < m.config.minPeriods) :
    m.endPulse chs latched active =
      { m with
        tracker := .noPulse, counters := { m.counters with glitch := min 65535 (m.counters.glitch + 1) } } := by
  simp [MeasuringPoint.endPulse, h, MeasuringPoint.countGlitch, MeasuringPoint.setTracker, bump16_eq_min]

theorem endPulse_of_edge (latched : Int) {active : Nat} (h : m.config.minPeriods ≤ active)
    (hm : m.config.mode.isCentre = false) :
    m.endPulse chs latched active = (m.addStrobe latched).setTracker .noPulse := by
  simp [MeasuringPoint.endPulse, not_lt.2 h, hm]

theorem endPulse_of_held (latched : Int) {active : Nat} (h : m.config.minPeriods ≤ active)
    (hm : m.config.mode.isCentre = true) (hh : m.axisHeld chs = true) :
    m.endPulse chs latched active =
      { m with
        tracker := .noPulse
        counters := { m.counters with heldStrobe := min 65535 (m.counters.heldStrobe + 1) } } := by
  simp [MeasuringPoint.endPulse, MeasuringPoint.endCentrePulse, not_lt.2 h, hm, hh, MeasuringPoint.countHeld,
    MeasuringPoint.setTracker, bump16_eq_min]

theorem endPulse_of_centre (latched : Int) {active : Nat} (h : m.config.minPeriods ≤ active)
    (hm : m.config.mode.isCentre = true) (hh : m.axisHeld chs = false) :
    m.endPulse chs latched active = (m.addStrobe (roundDiv (latched + m.latch chs) 2)).setTracker .noPulse := by
  simp [MeasuringPoint.endPulse, MeasuringPoint.endCentrePulse, not_lt.2 h, hm, hh]

theorem completePulse_of_edge {latched : Int} {n : Nat} (h : m.tracker = .qualifying latched n)
    (hm : m.config.mode.isCentre = false) : m.completePulse = (m.addStrobe latched).setTracker .settling := by
  unfold MeasuringPoint.completePulse
  rw [h]
  dsimp only
  rw [hm, if_neg (by decide)]

end

/-- Settles O30: the line moves, and an edge found in NO_PULSE is stray, held, complete or latched. -/
theorem leadingEdgeIsStrayHeldOrLatched : Obligations.LeadingEdgeIsStrayHeldOrLatched := by
  refine ⟨fun c => rfl, ⟨rfl, rfl, rfl, rfl⟩, ?_⟩
  intro p s m u x after
  have hafter : ∀ {n}, m.leadingEdge s.channels = n → after n := fun h =>
    congrArg (fun n => Host.Outcome.next (s.setPoint p n)) h
  have hstart : m.state ≠ .disabled → m.tracker = .noPulse → m.leadingEdge s.channels = u.beginPulse s.channels :=
    fun he ht => by rw [leadingEdge_of_enabled _ he, if_pos ht]
  refine ⟨fun hd => hafter (leadingEdge_of_disabled _ hd), fun he ht => hafter ?_, fun he ht hc => hafter ?_,
    fun d dir r he ht hc => ⟨fun hh => hafter ?_, fun hh => ⟨fun hm hw => hafter ?_, fun hm => hafter ?_⟩⟩⟩
  · rw [leadingEdge_of_enabled _ he, if_neg ht]
  · rw [hstart he ht]
    exact beginPulse_of_closed s.channels (m := u) hc
  all_goals
    rw [hstart he ht]
    have hopen : u.passOpen = true := MeasuringPoint.passOpen_of hc
  · exact beginPulse_of_held s.channels hopen ((u.axisHeld_iff _).2 hh)
  · rw [beginPulse_of_complete s.channels hopen ((u.axisHeld_eq_false_iff _).2 hh)
      ((StrobeMode.isCentre_eq_false_iff _).2 hm) hw, addStrobe_of_opened (m := u) hc]
    rfl
  · refine beginPulse_of_latched s.channels hopen ((u.axisHeld_eq_false_iff _).2 hh) ?_
    rcases hm with hm | hm | hm
    · exact .inl ((StrobeMode.isCentre_eq_true_iff _).2 (.inl hm))
    · exact .inl ((StrobeMode.isCentre_eq_true_iff _).2 (.inr hm))
    · exact .inr hm

/-- Settles O31: a trailing edge by the tracker, and the pulse that ends by its width, its mode and the holds. -/
theorem pulsesEndCompleteAndTrigger : Obligations.PulsesEndCompleteAndTrigger := by
  refine ⟨?_, fun p s => ⟨fun x n d dir r ht hm hc => ?_, rfl⟩⟩
  · intro p active s m u after
    have hafter : ∀ {n}, m.trailingEdge s.channels active = n → after n := fun h =>
      congrArg (fun n => Host.Outcome.next (s.setPoint p n)) h
    have hend : ∀ {xl n}, m.state ≠ .disabled → m.tracker = .qualifying xl n →
        m.trailingEdge s.channels active = u.endPulse s.channels xl active := fun he ht =>
      (trailingEdge_of_enabled _ _ he).2.1 _ _ ht
    refine ⟨fun hd => hafter (trailingEdge_of_disabled _ _ hd), fun he ht => hafter ?_, fun he ht => hafter ?_,
      fun xl n he ht hw => hafter ?_, fun xl n d dir r he ht hw hm hc => ⟨fun hh => hafter ?_, fun hh => hafter ?_⟩,
      fun xl n d dir r he ht hw hm hc => hafter ?_⟩
    · exact (trailingEdge_of_enabled _ _ he).1 ht
    · exact (trailingEdge_of_enabled _ _ he).2.2 ht
    · rw [hend he ht]
      exact endPulse_of_glitch s.channels xl (m := u) hw
    · rw [hend he ht]
      exact endPulse_of_held s.channels xl (m := u) hw ((StrobeMode.isCentre_eq_true_iff _).2 hm)
        ((u.axisHeld_iff _).2 hh)
    · rw [hend he ht, endPulse_of_centre s.channels xl (m := u) hw ((StrobeMode.isCentre_eq_true_iff _).2 hm)
        ((u.axisHeld_eq_false_iff _).2 hh), addStrobe_of_opened (m := u) hc]
      rfl
    · rw [hend he ht, endPulse_of_edge s.channels xl (m := u) hw ((StrobeMode.isCentre_eq_false_iff _).2 hm),
        addStrobe_of_opened (m := u) hc]
      rfl
  · refine congrArg (fun n => Host.Outcome.next (s.setPoint p n)) ?_
    rw [completePulse_of_edge ht ((StrobeMode.isCentre_eq_false_iff _).2 hm), addStrobe_of_opened hc]
    rfl

/-! ### Latches (R54) -/

theorem clkPeriods_range {tau : Nat} (h : tau ≤ 4000) : 0 ≤ clkPeriods tau ∧ clkPeriods tau ≤ 320 := by
  have hb := roundDiv_bounds (2 * (tau : Int)) 25 (by decide)
  unfold clkPeriods
  omega

theorem delayedCount_zero (c : Channel) : delayedCount c (clkPeriods 0) = c.count := by
  have h0 : clkPeriods 0 = 0 := rfl
  have hr : roundDiv 0 64 = 0 := rfl
  rw [delayedCount, h0, mul_zero, hr, sub_zero]

/-- Settles O32: the delay reaches 320 periods and Vel 6,144 counts, so the correction 30,720. -/
theorem latchIsDelayCorrected : Obligations.LatchIsDelayCorrected := by
  refine ⟨fun m chs => rfl, fun m chs h => ?_, fun c tau ht hl hs => ?_⟩
  · unfold MeasuringPoint.latch
    simp only [h, delayedCount_zero]
    rfl
  · have hv : |c.vel| ≤ 6144 := Samples.abs_history_sum_le hl hs
    have hp : |clkPeriods tau| ≤ 320 := by
      rw [abs_of_nonneg (clkPeriods_range ht).1]
      exact (clkPeriods_range ht).2
    have hprod : |c.vel * clkPeriods tau| ≤ 6144 * 320 := by
      rw [abs_mul]
      exact mul_le_mul hv hp (abs_nonneg _) (by decide)
    have hb := roundDiv_bounds (c.vel * clkPeriods tau) 64 (by decide)
    rw [abs_le] at hprod ⊢
    unfold delayedCount
    omega

end Sys2Proof.Proofs.Strobes

/-! The compensation unit: commits, examinations, the timer, and the requests that supply the medium and set the scheduling (R31 to R39,
R155 to R169). -/

namespace Sys2Proof.Proofs.Medium

open Sys2Proof.Machine

/-! ### Commits and examinations (R36 to R39, R163, R164) -/

theorem takeCommit_of_opened {m : MeasuringPoint} {d : Designation} {dir : Travel} {r : OpenPass}
    (h : m.cursor = .opened d dir r) : m.takeCommit = { m with cursor := .opened d dir { r with split := true } } := by
  unfold MeasuringPoint.takeCommit
  rw [h]

/-- A commit of a pending set, as its application and its events. -/
theorem commit_of_some {s : State} {ps : MediumSet} (h : s.cu.pendingSet = some ps) (kind : CommitKind) :
    s.commit kind = ((s.applyCommit ps kind).raise .committed).raiseIf (decide (kind = .panic)) .panicCommit := by
  rcases s.commit_cases kind with ⟨hn, _⟩ | ⟨ps', hs, e⟩
  · rw [h] at hn; cases hn
  · rw [h] at hs; cases hs; exact e

/-- Settles O33. -/
theorem commitMakesThePendingSetActive : Obligations.CommitMakesThePendingSetActive := by
  refine ⟨fun s kind h => State.commit_of_none h kind, fun s ps kind h => ?_⟩
  intro t
  have ht : t = ((s.applyCommit ps kind).raise .committed).raiseIf (decide (kind = .panic)) .panicCommit :=
    commit_of_some h kind
  have hpoint : ∀ p, t.point p = (s.point p).takeCommit := fun p => by rw [ht]; simp
  refine ⟨fun a => ?_, ?_, fun p hp => ?_, fun p d dir r hc => ?_, fun k => ?_, by simp [t], by simp [t], by simp [t],
    by simp [t], by simp [t], by simp [t], by simp [t], by simp [t], by simp [t]⟩
  · rw [ht]
    simp [Channel.recompensate, compensatedScale]
  · rw [ht]
    simp [State.applyCommit]
  · rw [hpoint, Samples.takeCommit_of_closed _ hp]
  · rw [hpoint, takeCommit_of_opened hc]
  · rw [ht]
    simp [and_comm, or_assoc]

theorem quiet_iff (m : MeasuringPoint) : m.quiet = true ↔ ¬∃ d dir r, m.cursor = .opened d dir r := by
  rw [MeasuringPoint.quiet, Bool.not_eq_true', ← Bool.not_eq_true, m.passOpen_iff]

/-- Guard-clear, by the cursor of a quiet point (R163). -/
theorem guardClear_iff (m : MeasuringPoint) (g : Nat) :
    m.guardClear g = true ↔ m.quiet = true ∧
      (m.state ≠ .scanning ∨ m.cursor = .atEnd ∨
        (∃ d tr, m.cursor = .armed d .forward tr ∧ (g : Int) < d.lower - m.x) ∨
        ∃ d tr, m.cursor = .armed d .reverse tr ∧ (g : Int) < m.x - d.upper) := by
  rw [MeasuringPoint.guardClear, Bool.and_eq_true, Bool.or_eq_true, decide_eq_true_eq]
  refine and_congr_right fun _ => or_congr_right ?_
  cases m.cursor with
  | armed d dir tr =>
    refine decide_eq_true_iff.trans ?_
    cases dir <;> simp [nearDistance, nearEdge]
  | _ => simp

/-- Settles O34: an examination by its conditions, in their order. -/
theorem examinationDecidesTheCommit : Obligations.ExaminationDecidesTheCommit := by
  refine ⟨fun m g => ⟨quiet_iff m, guardClear_iff m g⟩, fun s => ?_⟩
  intro quiet clear
  have hquiet : s.bothQuiet = true ↔ quiet := by
    rw [State.bothQuiet, Bool.and_eq_true]
    rfl
  have hclear : s.bothGuardClear = true ↔ clear := by
    rw [State.bothGuardClear, Bool.and_eq_true]
    rfl
  unfold State.examine
  refine ⟨fun hh => ?_, fun hh hd hq => ?_, fun hh hn hc => ?_, fun hh hn hc => ?_⟩
  · rw [if_pos hh]
  · rw [if_neg (by rw [hh]; decide), if_pos ⟨hd, hquiet.2 hq⟩]
  · rw [if_neg (by rw [hh]; decide), if_neg (by rw [hquiet]; exact hn), if_pos (hclear.2 hc)]
  · rw [if_neg (by rw [hh]; decide), if_neg (by rw [hquiet]; exact hn), if_neg (by rw [hclear]; exact hc)]

/-! ### The timer (R155, R158, R159) -/

/-- Stages 2 to 4 of an expiry, with the raised debt written out (R158). -/
theorem expiryCommit_eq (s : State) :
    s.expiryCommit =
      if (if s.cu.pendingSet.isSome then s.cu.debt + 1 else s.cu.debt) = s.cu.panicMark then
        { s with cu := { s.cu with debt := if s.cu.pendingSet.isSome then s.cu.debt + 1 else s.cu.debt } }.commit .panic
      else { s with cu := { s.cu with debt := if s.cu.pendingSet.isSome then s.cu.debt + 1 else s.cu.debt } }.examine := by
  have hd : s.cu.raiseDebt = { s.cu with debt := if s.cu.pendingSet.isSome then s.cu.debt + 1 else s.cu.debt } := by
    unfold Cu.raiseDebt
    split <;> rfl
  rcases s.expiryCommit_cases with ⟨hp, e⟩ | ⟨hp, e⟩
  · rw [hd] at hp e
    rw [e, if_pos hp]
  · rw [hd] at hp e
    rw [e, if_neg hp]

theorem staleTest_of {s : State} (h : s.cu.staleLimit ≤ s.cu.age ∧ s.cu.stale = false) :
    s.staleTest = { s with cu := { s.cu with stale := true } }.raise .mediumStale := if_pos h

theorem staleTest_of_not {s : State} (h : ¬(s.cu.staleLimit ≤ s.cu.age ∧ s.cu.stale = false)) : s.staleTest = s :=
  if_neg h

theorem exec_millisecondTick (s : State) :
    exec .millisecondTick s =
      .next (if s.cu.timerEnable then (if s.cu.timerCount = 0 then s.expire else s.reduceTimer) else s) := rfl

theorem exec_expiry {s : State} (he : s.cu.timerEnable = true) (hc : s.cu.timerCount = 0) :
    exec .expiry s = .next s.expire := by
  change Host.Outcome.next (if s.cu.timerEnable = true ∧ s.cu.timerCount = 0 then s.expire else s) = _
  rw [if_pos ⟨he, hc⟩]

/-- Settles O35. -/
theorem tickReducesTheCountOrExpires : Obligations.TickReducesTheCountOrExpires := by
  refine ⟨fun s => ⟨fun he hc => ?_, fun he hc => ?_, fun he => ?_⟩, fun s he hc => ?_⟩
  · rw [exec_millisecondTick, if_pos he, if_neg (by omega)]
    rfl
  · rw [exec_millisecondTick, if_pos he, if_pos hc, exec_expiry he hc]
  · rw [exec_millisecondTick, he, if_neg (by decide)]
  · intro age goesStale debt cu act
    have hage : bump8 s.cu.age = age := bump8_eq_min _
    rw [exec_expiry he hc]
    unfold State.expire
    rw [hage]
    refine ⟨fun hs => ?_, fun hs => ?_⟩
    · rw [staleTest_of (s := { s with cu := { s.cu with timerCount := s.cu.timerPeriod, age := age } }) hs,
        expiryCommit_eq]
      rfl
    · rw [staleTest_of_not (s := { s with cu := { s.cu with timerCount := s.cu.timerPeriod, age := age } }) hs,
        expiryCommit_eq]

/-! ### SUPPLY MEDIUM (R31 to R34) -/

theorem clampW_eq (w : Int) : clampW w = max (-20000000) (min 20000000 w) := clampInt_eq (by decide) w

theorem acceptedStatus_eq {b : Bool} {p : Prop} (h : b = true ↔ ¬p) [Decidable p] :
    acceptedStatus b = if p then .ok else .clamped := by
  by_cases hp : p
  · rw [if_pos hp, Bool.eq_false_iff.2 fun hb => h.1 hb hp]
    rfl
  · rw [if_neg hp, h.2 hp]
    rfl

theorem supplyClamped_iff (mask : Byte) (w : Axes (BitVec 32)) :
    supplyClamped mask w = true ↔
      ∃ a : Axis, mask.getLsbD a.val = true ∧ max (-20000000) (min 20000000 (w.get a).toInt) ≠ (w.get a).toInt := by
  simp only [supplyClamped, anyAxis_iff, maskNames, Bool.and_eq_true, decide_eq_true_eq, clampW_eq]

/-- An accepted SUPPLY MEDIUM, with the status as the model forms it. -/
theorem exec_supplyMedium {s : State} (h : s.TakesRequests) (generation : BitVec 16) {mask : Byte} (w : Axes (BitVec 32))
    (hm : mask.toNat < 64) :
    exec (.supplyMedium generation mask w) s =
      .next ({ s with cu := s.cu.supply generation mask w }.examine.answered 27
        (.plain (acceptedStatus (supplyClamped mask w)))) := by
  refine congrArg Host.Outcome.next (State.serve_accepted h ?_ (by simp))
  rw [if_neg (by omega), ← State.shiftOut_examine]
  rfl

/-- Settles O36. -/
theorem supplyMediumCreatesOrMerges : Obligations.SupplyMediumCreatesOrMerges := by
  intro s generation mask w ht hm named clamped base supplied u
  have hset : s.cu.suppliedSet generation mask w = supplied := by
    have hbase : (s.cu.pendingSet.map MediumSet.w).getD s.cu.activeW = base := by
      refine Eq.trans ?_ (show (match s.cu.pendingSet with | none => s.cu.activeW | some ps => ps.w) = base from rfl)
      cases s.cu.pendingSet <;> rfl
    simp only [Cu.suppliedSet, hbase, clampW_eq]
    rfl
  have hu : { s with cu := s.cu.supply generation mask w } = u := by
    rw [Cu.supply, hset]
  rw [exec_supplyMedium ht generation w hm, hu]
  refine ⟨fun h => ?_, fun h => ?_⟩
  · have hno : supplyClamped mask w = false := by
      rw [← Bool.not_eq_true, supplyClamped_iff]
      rintro ⟨a, ha, hne⟩
      exact hne (h a ha)
    rw [hno]
    rfl
  · rw [(supplyClamped_iff mask w).2 h]
    rfl

/-! ### The scheduling requests (R156, R161, R162, R169) -/

theorem clampHp_eq (hp : Byte) : clampHp hp = max 1 (min 14 hp.toNat) := clampNat_eq (by decide) _

theorem clampPanic_eq (hp panic : Byte) :
    clampPanic hp panic = max (clampHp hp + 1) (max 2 (min 15 panic.toNat)) := by
  unfold clampPanic
  rw [clampNat_eq (by decide)]
  split <;> omega

theorem clampStale_eq (stale : Byte) : clampStale stale = max 1 stale.toNat := by
  have := stale.isLt
  unfold clampStale
  rw [clampNat_eq (by decide)]
  omega

theorem clampDistance_eq (g : BitVec 32) : clampDistance g = min 100000000 g.toNat := by
  unfold clampDistance Config.distanceMax
  rw [clampNat_eq (by decide)]
  omega

theorem policyClamped_iff (hp panic stale : Byte) (guard : BitVec 32) :
    policyClamped hp panic stale guard = true ↔
      ¬(clampHp hp = hp.toNat ∧ clampPanic hp panic = panic.toNat ∧ clampStale stale = stale.toNat ∧
        clampDistance guard = guard.toNat) := by
  simp only [policyClamped, Bool.or_eq_true, decide_eq_true_eq]
  tauto

theorem exec_setCommitPolicy {s : State} (h : s.TakesRequests) (hp panic stale : Byte) (guard : BitVec 32) (hold : Byte) :
    exec (.setCommitPolicy hp panic stale guard hold) s =
      .next ({ s with cu := s.cu.setPolicy hp panic stale guard hold }.policyPanic.staleTest.answered 8
        (.plain (acceptedStatus (policyClamped hp panic stale guard)))) := by
  refine congrArg Host.Outcome.next (State.serve_accepted h ?_ (MediumStep.setPolicy s hp panic stale guard hold).req)
  rw [← State.shiftOut_staleTest, ← State.shiftOut_policyPanic]
  rfl

theorem exec_forceCommit {s : State} (h : s.TakesRequests) :
    exec .forceCommit s = .next ({ s with cu := s.cu.force }.answered 0 (.plain .ok)) :=
  congrArg Host.Outcome.next (State.serve_accepted h rfl rfl)

theorem exec_setTimer {s : State} (h : s.TakesRequests) (select : Byte) (period count : BitVec 16) (enable : Byte) :
    exec (.setTimer select period count enable) s =
      .next ({ s with cu := s.cu.setTimer select period count enable }.answered 6 (.plain .ok)) :=
  congrArg Host.Outcome.next (State.serve_accepted h rfl rfl)

/-- The commit that a new panic mark makes due moves neither the age nor the marks (R39, R162). -/
theorem policyPanic_cu (s : State) :
    s.policyPanic.cu.staleLimit = s.cu.staleLimit ∧ s.policyPanic.cu.age = s.cu.age ∧ s.policyPanic.cu.stale = s.cu.stale := by
  rcases s.policyPanic_cases with ⟨e, _⟩ | ⟨e, hp, _⟩
  · rw [e]
    exact ⟨rfl, rfl, rfl⟩
  · obtain ⟨ps, hps⟩ := Option.isSome_iff_exists.1 hp
    rw [e, commit_of_some hps]
    simp [State.applyCommit]

/-- Settles O37. -/
theorem schedulingRequestsWriteTheirSettings : Obligations.SchedulingRequestsWriteTheirSettings := by
  refine ⟨?_, fun s ht => ⟨fun ps hps => ?_, fun hps => ?_, fun select period count enable => ?_⟩⟩
  · intro s hp panic stale guard hold ht hp' panic' stale' guard' status u v
    have hset : { s with cu := s.cu.setPolicy hp panic stale guard hold } = u := by
      simp only [Cu.setPolicy, clampPanic_eq, clampHp_eq, clampStale_eq, clampDistance_eq, flagOf_eq]
      rfl
    have hv : u.policyPanic = v := rfl
    have hstatus : acceptedStatus (policyClamped hp panic stale guard) = status := by
      refine (acceptedStatus_eq (policyClamped_iff hp panic stale guard)).trans ?_
      simp only [clampPanic_eq, clampHp_eq, clampStale_eq, clampDistance_eq]
      rfl
    obtain ⟨hlimit, hage, hflag⟩ := policyPanic_cu u
    rw [exec_setCommitPolicy ht, hset, hstatus]
    refine ⟨fun ha hs => ?_, fun h => ?_⟩
    · rw [staleTest_of (by rw [hlimit, hage, hflag]; exact ⟨ha, hs⟩), hv]
      rfl
    · rw [staleTest_of_not (by rw [hlimit, hage, hflag]; exact h), hv]
      rfl
  · have hforce : s.cu.force = { s.cu with debt := max s.cu.debt s.cu.hpMark } := by
      simp [Cu.force, hps]
    rw [exec_forceCommit ht, hforce]
    rfl
  · have hforce : s.cu.force = s.cu := by simp [Cu.force, hps]
    rw [exec_forceCommit ht, hforce]
    rfl
  · rw [exec_setTimer ht, Cu.setTimer, flagOf_eq]
    rfl

end Sys2Proof.Proofs.Medium

/-! The axis requests: CONFIGURE AXIS, PRESET AXIS and READ AXES, accepted and refused (R17 to R24). -/

namespace Sys2Proof.Proofs.AxisRequests

open Sys2Proof.Machine

/-- A flag or a divider of 0 is written as 1 and answered CLAMPED (R18, R103). -/
theorem acceptedStatus_zero (b : Byte) : acceptedStatus (decide (b = 0)) = if b.toNat = 0 then .clamped else .ok := by
  have h : b = 0 ↔ b.toNat = 0 := byte_eq_iff b 0 (by decide)
  by_cases hb : b.toNat = 0
  · rw [if_pos hb, decide_eq_true (h.2 hb)]
    rfl
  · rw [if_neg hb, decide_eq_false (fun e => hb (h.1 e))]
    rfl

theorem clampByte_eq (b : Byte) : clampNat 1 255 b.toNat = max 1 b.toNat := by
  have := b.isLt
  rw [clampNat_eq (by decide)]
  omega

section
variable {s : State} {a : Axis}

theorem axisInUse_of (h : ∃ p, ((s.point p).state = .scanning ∨ (s.point p).state = .halted) ∧
    (s.point p).config.coeffs.get a ≠ 0) : s.axisInUse a = true := by
  obtain ⟨p, hr, hc⟩ := h
  exact (s.axisInUse_iff a).2 ⟨p, (MeasuringPoint.running_iff _).2 hr, (MeasuringPoint.contributes_iff _ a).2 hc⟩

theorem axisInUse_of_not (h : ∀ p, (s.point p).state = .scanning ∨ (s.point p).state = .halted →
    (s.point p).config.coeffs.get a = 0) : s.axisInUse a = false := by
  rw [← Bool.not_eq_true, s.axisInUse_iff]
  rintro ⟨p, hr, hc⟩
  exact (MeasuringPoint.contributes_iff _ a).1 hc (h p ((MeasuringPoint.running_iff _).1 hr))

/-! ### CONFIGURE AXIS (R17, R18) -/

section
variable (h : s.TakesRequests) {axis : Byte} (fitted : Byte) {wavelength : BitVec 32} {fold : Byte} (invert drop : Byte)
include h

theorem exec_configureAxis (ha : axis.toNat = a.val) (hv : axisSettingsValid wavelength fold = true)
    (hu : s.axisInUse a = false) :
    exec (.configureAxis axis fitted wavelength fold invert drop) s =
      .next ({ s with
          channels := s.channels.set a
            (((s.channels.get a).configure (s.cu.activeW.get a) (flagOf fitted) wavelength.toNat fold.toNat (flagOf invert)
              drop.toNat).setFitted (s.cu.activeW.get a) (flagOf fitted)) }.answered 9
        { status := if drop.toNat = 0 then .clamped else .ok, data := [] }) := by
  refine congrArg Host.Outcome.next (State.serve_accepted h ?_ rfl)
  have hu' : (s.shiftOut (s.req.frameEdges 9)).axisInUse a = false := hu
  rw [axisOf_of ha, ← acceptedStatus_zero]
  dsimp only
  rw [hv, if_neg (by decide), hu', if_neg (by decide)]
  rfl

theorem exec_configureAxis_badParam (hb : 5 < axis.toNat ∨ axisSettingsValid wavelength fold = false) :
    exec (.configureAxis axis fitted wavelength fold invert drop) s = .next (s.answered 9 ⟨.badParam, []⟩) := by
  refine congrArg Host.Outcome.next (State.serve_refused h ?_)
  cases ha : axisOf axis with
  | none => rfl
  | some b =>
    rcases hb with hb | hb
    · rw [axisOf_of_gt hb] at ha
      cases ha
    · dsimp only
      rw [hb, if_pos (by decide)]

theorem exec_configureAxis_pointState (ha : axis.toNat = a.val) (hv : axisSettingsValid wavelength fold = true)
    (hu : s.axisInUse a = true) :
    exec (.configureAxis axis fitted wavelength fold invert drop) s = .next (s.answered 9 ⟨.pointState, []⟩) := by
  refine congrArg Host.Outcome.next (State.serve_refused h ?_)
  have hu' : (s.shiftOut (s.req.frameEdges 9)).axisInUse a = true := hu
  rw [axisOf_of ha]
  dsimp only
  rw [hv, if_neg (by decide), hu', if_pos rfl]

/-! ### PRESET AXIS (R22, R23) -/

variable {value : BitVec 48}

theorem exec_presetAxis (ha : axis.toNat = a.val) (hv : countInRange value.toInt = true) (hp : s.presettable a = true)
    (hu : s.axisInUse a = false) :
    exec (.presetAxis axis value) s =
      .next ({ s with channels := s.channels.set a ((s.channels.get a).preset value.toInt) }.answered 7 ⟨.ok, []⟩) := by
  refine congrArg Host.Outcome.next (State.serve_accepted h ?_ rfl)
  have hp' : (s.shiftOut (s.req.frameEdges 7)).presettable a = true := hp
  have hu' : (s.shiftOut (s.req.frameEdges 7)).axisInUse a = false := hu
  rw [axisOf_of ha]
  dsimp only
  rw [hv, if_neg (by decide), hp', if_neg (by decide), hu', if_neg (by decide)]
  rfl

theorem exec_presetAxis_badParam (hb : 5 < axis.toNat ∨ countInRange value.toInt = false) :
    exec (.presetAxis axis value) s = .next (s.answered 7 ⟨.badParam, []⟩) := by
  refine congrArg Host.Outcome.next (State.serve_refused h ?_)
  cases ha : axisOf axis with
  | none => rfl
  | some b =>
    rcases hb with hb | hb
    · rw [axisOf_of_gt hb] at ha
      cases ha
    · dsimp only
      rw [hb, if_pos (by decide)]

theorem exec_presetAxis_axisState (ha : axis.toNat = a.val) (hv : countInRange value.toInt = true)
    (hp : s.presettable a = false) : exec (.presetAxis axis value) s = .next (s.answered 7 ⟨.axisState, []⟩) := by
  refine congrArg Host.Outcome.next (State.serve_refused h ?_)
  have hp' : (s.shiftOut (s.req.frameEdges 7)).presettable a = false := hp
  rw [axisOf_of ha]
  dsimp only
  rw [hv, if_neg (by decide), hp', if_pos (by decide)]

theorem exec_presetAxis_pointState (ha : axis.toNat = a.val) (hv : countInRange value.toInt = true)
    (hp : s.presettable a = true) (hu : s.axisInUse a = true) :
    exec (.presetAxis axis value) s = .next (s.answered 7 ⟨.pointState, []⟩) := by
  refine congrArg Host.Outcome.next (State.serve_refused h ?_)
  have hp' : (s.shiftOut (s.req.frameEdges 7)).presettable a = true := hp
  have hu' : (s.shiftOut (s.req.frameEdges 7)).axisInUse a = true := hu
  rw [axisOf_of ha]
  dsimp only
  rw [hv, if_neg (by decide), hp', if_neg (by decide), hu', if_pos rfl]

theorem exec_readAxes : exec .readAxes s = .next (s.answered 0 { status := .ok, data := s.axesReading }) :=
  congrArg Host.Outcome.next (State.serve_accepted h rfl rfl)

end

theorem presettable_iff :
    s.presettable a = true ↔ (s.channels.get a).state ≠ .off ∧ (s.channels.get a).sigok = true ∧ s.refok = true ∧
      (s.channels.get a).lastPhase ≠ none ∧ s.lostNow.get a = false := by
  simp [State.presettable, Channels.Channel.presettable_iff, Channel.seeded, Option.isSome_iff_ne_none, and_assoc]

end

/-! ### The channel that CONFIGURE AXIS leaves (R18 to R20, R26, R28) -/

section
variable (c : Channel) (w : Int) (fitted : Bool) (wavelength fold : Nat) (invert : Bool) (drop : Byte)

/-- The settings written (R18). -/
def written : Channel :=
  { c with fitted := fitted, wavelength := wavelength, fold := fold, invert := invert, dropLimit := max 1 drop.toNat }

theorem configure_eq :
    c.configure w fitted wavelength fold invert drop.toNat =
      if c.wavelength = wavelength ∧ c.fold = fold then written c fitted wavelength fold invert drop
      else (written c fitted wavelength fold invert drop).rescale w := by
  rw [Channel.configure, clampByte_eq]
  rfl

theorem configure_state : (c.configure w fitted wavelength fold invert drop.toNat).state = c.state := by
  rw [configure_eq]
  split_ifs <;> rfl

/-- Fitting rescales by the settings in force, rescaled already or not (R19, R26). -/
theorem configure_fit :
    (c.configure w fitted wavelength fold invert drop.toNat).fit w =
      { (written c fitted wavelength fold invert drop).rescale w with
        state := .relative, count := 0, lastPhase := none, hold := 0, history := [], lostCause := .none, dropouts := 0 } := by
  rw [configure_eq]
  split_ifs <;> rfl

end

/-- Settles O38: the settings are written, rescaled when λ or f differs, and the fitted setting acts by the channel's state. -/
theorem configureAxisWritesFitsAndUnfits : Obligations.ConfigureAxisWritesFitsAndUnfits := by
  intro s a axis fitted wavelength fold invert drop ht ha hlow hhigh hf hu c q kc written' scaled cleared after
  have hafter : ∀ {n}, ((s.channels.get a).configure (s.cu.activeW.get a) (flagOf fitted) wavelength.toNat fold.toNat
      (flagOf invert) drop.toNat).setFitted (s.cu.activeW.get a) (flagOf fitted) = n → after n := fun e => by
    have h := exec_configureAxis ht fitted invert drop ha
      ((Channels.axisSettingsValid_iff wavelength fold).2 ⟨⟨hlow, hhigh⟩, hf⟩) (axisInUse_of_not hu)
    rw [e] at h
    exact h
  have hscaled : (s.channels.get a).configure (s.cu.activeW.get a) (flagOf fitted) wavelength.toNat fold.toNat
      (flagOf invert) drop.toNat = scaled := by
    rw [configure_eq, flagOf_eq, flagOf_eq]
    rfl
  have hstate := configure_state (s.channels.get a) (s.cu.activeW.get a) (flagOf fitted) wavelength.toNat fold.toNat
    (flagOf invert) drop
  have hyes : fitted.toNat ≠ 0 → flagOf fitted = true := fun h => by rw [flagOf_eq]; exact decide_eq_true h
  have hno : fitted.toNat = 0 → flagOf fitted = false := fun h => by rw [flagOf_eq]; exact decide_eq_false (not_not.2 h)
  refine ⟨fun hfit hs => hafter ?_, fun hfit hs => hafter ?_, fun hfit hs => hafter ?_, fun hfit hs => hafter ?_⟩ <;>
    unfold Channel.setFitted
  · rw [hyes hfit, if_pos rfl, ← hyes hfit, if_pos (hstate.trans hs), configure_fit, flagOf_eq, flagOf_eq]
    rfl
  · rw [if_pos (hyes hfit), if_neg (by rw [hstate]; exact hs), hscaled]
  · rw [if_neg (by rw [hno hfit]; decide), if_neg (by rw [hstate]; exact hs), hscaled]
    rfl
  · rw [if_neg (by rw [hno hfit]; decide), if_pos (hstate.trans hs), hscaled]

/-- The six readings, axis 0 first (R204). -/
theorem axesReading_eq (s : State) :
    s.axesReading =
      (s.channels.get 0).reading s.refok ++ (s.channels.get 1).reading s.refok ++ (s.channels.get 2).reading s.refok ++
        (s.channels.get 3).reading s.refok ++ (s.channels.get 4).reading s.refok ++ (s.channels.get 5).reading s.refok := by
  simp only [State.axesReading, Axes.toList, List.flatMap_cons, List.flatMap_nil, List.append_nil, List.append_assoc]
  rfl

/-- Settles O39. -/
theorem presetAxisAndReadAxes : Obligations.PresetAxisAndReadAxes := by
  refine fun s ht => ⟨fun a axis value ha hlow hhigh hs hsig href hp hl hu => ?_, ?_⟩
  · exact exec_presetAxis ht ha ((Channels.countInRange_iff _).2 ⟨hlow, hhigh⟩) (presettable_iff.2 ⟨hs, hsig, href, hp, hl⟩)
      (axisInUse_of_not hu)
  · rw [exec_readAxes ht, axesReading_eq]

end Sys2Proof.Proofs.AxisRequests

/-! The point and scan requests: CONFIGURE POINT, START SCAN, STOP SCAN and ACKNOWLEDGE HALT, accepted and refused (R45, R46, R102 to
R104, R127). -/

namespace Sys2Proof.Proofs.PointRequests

open Sys2Proof.Machine

/-! ### The parameters (R45, R200) -/

/-- The code of a strobe mode (R201). -/
def ModeCode (b : Byte) (md : StrobeMode) : Prop :=
  b.toNat = 0 ∧ md = .edgeRise ∨ b.toNat = 1 ∧ md = .edgeFall ∨ b.toNat = 2 ∧ md = .centreHigh ∨
    b.toNat = 3 ∧ md = .centreLow

theorem modeOf_of {b : Byte} {md : StrobeMode} (h : ModeCode b md) : modeOf b = some md := by
  rw [modeOf_eq]
  rcases h with ⟨h, rfl⟩ | ⟨h, rfl⟩ | ⟨h, rfl⟩ | ⟨h, rfl⟩ <;> rw [h] <;> rfl

theorem modeCode_of_le {b : Byte} (h : b.toNat ≤ 3) : ∃ md, ModeCode b md := by
  obtain h | h | h | h : b.toNat = 0 ∨ b.toNat = 1 ∨ b.toNat = 2 ∨ b.toNat = 3 := by omega
  · exact ⟨_, .inl ⟨h, rfl⟩⟩
  · exact ⟨_, .inr (.inl ⟨h, rfl⟩)⟩
  · exact ⟨_, .inr (.inr (.inl ⟨h, rfl⟩))⟩
  · exact ⟨_, .inr (.inr (.inr ⟨h, rfl⟩))⟩

theorem modeOf_of_gt {b : Byte} (h : 3 < b.toNat) : modeOf b = none := by
  rw [modeOf_eq, if_neg (by omega), if_neg (by omega), if_neg (by omega), if_neg (by omega)]

section
variable (coeffs : Axes (BitVec 32))

@[simp] theorem coeffsOf_get (a : Axis) : (coeffsOf coeffs).get a = (coeffs.get a).toInt := Axes.get_ofFn _ _

/-- The coefficients pass their checks: in range, and one of them not 0 when the point is enabled (R45). -/
def CoeffsPass (enabled : Byte) : Prop :=
  (∀ a, -2097152 ≤ (coeffs.get a).toInt ∧ (coeffs.get a).toInt ≤ 2097152) ∧
    (enabled.toNat ≠ 0 → ∃ a, (coeffs.get a).toInt ≠ 0)

theorem coeffsCheck_eq_false_iff (enabled : Byte) :
    (!coeffsInRange (coeffsOf coeffs) || (flagOf enabled && !coeffsNonzero (coeffsOf coeffs))) = false ↔
      CoeffsPass coeffs enabled := by
  have hrange : coeffsInRange (coeffsOf coeffs) = true ↔ _ := Points.coeffsInRange_iff _
  have hnonzero : coeffsNonzero (coeffsOf coeffs) = true ↔ ∃ a, (coeffs.get a).toInt ≠ 0 := by
    simp [coeffsNonzero, anyAxis_iff]
  rw [Bool.or_eq_false_iff, Bool.not_eq_false', hrange, Bool.and_eq_false_iff, Bool.not_eq_false', hnonzero, flagOf_eq,
    decide_eq_false_iff_not]
  simp only [coeffsOf_get]
  exact and_congr_right fun _ => imp_iff_not_or.symm

theorem coeffsOnOff_iff (chs : Axes Channel) :
    coeffsOnOff (coeffsOf coeffs) chs = true ↔ ∃ a, (coeffs.get a).toInt ≠ 0 ∧ (chs.get a).state = .off := by
  simp [coeffsOnOff, anyAxis_iff]

end

/-! ### CONFIGURE POINT (R45, R46) -/

section
variable {s : State} (h : s.TakesRequests) {p : Point} {point enabled : Byte} {coeffs : Axes (BitVec 32)} {mode : Byte}
  {md : StrobeMode} (tau width hyst : BitVec 16) (lead : BitVec 32)
include h

theorem exec_configurePoint (hp : pointOf point = some p) (hm : modeOf mode = some md) (hc : CoeffsPass coeffs enabled)
    (hs : (s.point p).state = .disabled ∨ (s.point p).state = .idle) (hoff : coeffsOnOff (coeffsOf coeffs) s.channels = false) :
    exec (.configurePoint point enabled coeffs mode tau width hyst lead) s =
      .next ((s.setPoint p
          ((s.point p).configure (pointSettings enabled (coeffsOf coeffs) md tau width hyst lead) s.sampled)).answered 37
        (.plain (acceptedStatus
          (pointClamped (pointSettings enabled (coeffsOf coeffs) md tau width hyst lead) tau width hyst lead)))) := by
  refine congrArg Host.Outcome.next (State.serve_accepted h ?_ rfl)
  have hs' : ¬((s.point p).state ≠ .disabled ∧ (s.point p).state ≠ .idle) := fun ⟨h1, h2⟩ => hs.elim h1 h2
  rw [hp, hm]
  dsimp only
  rw [(coeffsCheck_eq_false_iff coeffs enabled).2 hc, if_neg (by decide), State.shiftOut_point, if_neg hs',
    State.shiftOut_channels, hoff, if_neg (by decide)]
  rfl

theorem exec_configurePoint_badParam (hb : pointOf point = none ∨ modeOf mode = none ∨ ¬CoeffsPass coeffs enabled) :
    exec (.configurePoint point enabled coeffs mode tau width hyst lead) s = .next (s.answered 37 ⟨.badParam, []⟩) := by
  refine congrArg Host.Outcome.next (State.serve_refused h ?_)
  rw [← coeffsCheck_eq_false_iff, Bool.not_eq_false] at hb
  cases hp : pointOf point with
  | none => rfl
  | some p =>
    cases hm : modeOf mode with
    | none => rfl
    | some md =>
      dsimp only
      rcases hb with hb | hb | hb
      · rw [hp] at hb; cases hb
      · rw [hm] at hb; cases hb
      · rw [hb, if_pos rfl]

theorem exec_configurePoint_pointState (hp : pointOf point = some p) (hm : modeOf mode = some md)
    (hc : CoeffsPass coeffs enabled) (hs : (s.point p).state ≠ .disabled ∧ (s.point p).state ≠ .idle) :
    exec (.configurePoint point enabled coeffs mode tau width hyst lead) s = .next (s.answered 37 ⟨.pointState, []⟩) := by
  refine congrArg Host.Outcome.next (State.serve_refused h ?_)
  rw [hp, hm]
  dsimp only
  rw [(coeffsCheck_eq_false_iff coeffs enabled).2 hc, if_neg (by decide), State.shiftOut_point, if_pos hs]

theorem exec_configurePoint_axisState (hp : pointOf point = some p) (hm : modeOf mode = some md)
    (hc : CoeffsPass coeffs enabled) (hs : (s.point p).state = .disabled ∨ (s.point p).state = .idle)
    (hoff : coeffsOnOff (coeffsOf coeffs) s.channels = true) :
    exec (.configurePoint point enabled coeffs mode tau width hyst lead) s = .next (s.answered 37 ⟨.axisState, []⟩) := by
  refine congrArg Host.Outcome.next (State.serve_refused h ?_)
  have hs' : ¬((s.point p).state ≠ .disabled ∧ (s.point p).state ≠ .idle) := fun ⟨h1, h2⟩ => hs.elim h1 h2
  rw [hp, hm]
  dsimp only
  rw [(coeffsCheck_eq_false_iff coeffs enabled).2 hc, if_neg (by decide), State.shiftOut_point, if_neg hs',
    State.shiftOut_channels, hoff, if_pos rfl]

/-! ### START SCAN (R102, R103) -/

variable {first last : BitVec 16} (stride : Byte)

theorem exec_startScan (hp : pointOf point = some p) (hr : first.toNat ≤ last.toNat) (hs : (s.point p).state = .idle)
    (ht : (s.point p).axisNotTracking s.channels = false) :
    exec (.startScan point first last stride) s =
      .next ((s.takePoint p
          ((s.point p).startScan first.toNat last.toNat (clampNat 1 255 stride.toNat) (s.index p))).answered 6
        { status := if stride.toNat = 0 then .clamped else .ok, data := [] }) := by
  refine congrArg Host.Outcome.next (State.serve_accepted h ?_ (by simp))
  rw [hp, ← AxisRequests.acceptedStatus_zero]
  dsimp only
  rw [if_neg (by omega), State.shiftOut_point, if_neg (not_not.2 hs), State.shiftOut_channels, ht, if_neg (by decide),
    State.shiftOut_takePoint]
  rfl

theorem exec_startScan_badParam (hb : pointOf point = none ∨ last.toNat < first.toNat) :
    exec (.startScan point first last stride) s = .next (s.answered 6 ⟨.badParam, []⟩) := by
  refine congrArg Host.Outcome.next (State.serve_refused h ?_)
  cases hp : pointOf point with
  | none => rfl
  | some p =>
    dsimp only
    rcases hb with hb | hb
    · rw [hp] at hb; cases hb
    · rw [if_pos hb]

theorem exec_startScan_pointState (hp : pointOf point = some p) (hr : first.toNat ≤ last.toNat)
    (hs : (s.point p).state ≠ .idle) : exec (.startScan point first last stride) s = .next (s.answered 6 ⟨.pointState, []⟩) := by
  refine congrArg Host.Outcome.next (State.serve_refused h ?_)
  rw [hp]
  dsimp only
  rw [if_neg (by omega), State.shiftOut_point, if_pos hs]

theorem exec_startScan_axisState (hp : pointOf point = some p) (hr : first.toNat ≤ last.toNat)
    (hs : (s.point p).state = .idle) (ht : (s.point p).axisNotTracking s.channels = true) :
    exec (.startScan point first last stride) s = .next (s.answered 6 ⟨.axisState, []⟩) := by
  refine congrArg Host.Outcome.next (State.serve_refused h ?_)
  rw [hp]
  dsimp only
  rw [if_neg (by omega), State.shiftOut_point, if_neg (not_not.2 hs), State.shiftOut_channels, ht, if_pos rfl]

/-! ### STOP SCAN and ACKNOWLEDGE HALT (R104, R127) -/

theorem exec_stopScan (hp : pointOf point = some p) (hs : ¬((s.point p).state = .disabled ∨ (s.point p).state = .idle)) :
    exec (.stopScan point) s =
      .next ((s.setPoint p ((s.point p).stopScan s.cu.stale)).answered 1 { status := .ok, data := [] }) := by
  refine congrArg Host.Outcome.next (State.serve_accepted h ?_ rfl)
  rw [hp]
  dsimp only
  rw [State.shiftOut_point, if_neg hs]
  rfl

theorem exec_stopScan_pointState (hp : pointOf point = some p)
    (hs : (s.point p).state = .disabled ∨ (s.point p).state = .idle) :
    exec (.stopScan point) s = .next (s.answered 1 ⟨.pointState, []⟩) := by
  refine congrArg Host.Outcome.next (State.serve_refused h ?_)
  rw [hp]
  dsimp only
  rw [State.shiftOut_point, if_pos hs]

theorem exec_acknowledgeHalt (hp : pointOf point = some p) (hs : (s.point p).state = .halted) :
    exec (.acknowledgeHalt point) s =
      .next ((s.takePoint p ({ s.point p with state := .scanning }.seek (s.index p))).answered 1
        { status := .ok, data := [] }) := by
  refine congrArg Host.Outcome.next (State.serve_accepted h ?_ (by simp))
  rw [hp]
  dsimp only
  rw [State.shiftOut_point, if_neg (not_not.2 hs), State.shiftOut_takePoint]
  rfl

theorem exec_acknowledgeHalt_pointState (hp : pointOf point = some p) (hs : (s.point p).state ≠ .halted) :
    exec (.acknowledgeHalt point) s = .next (s.answered 1 ⟨.pointState, []⟩) := by
  refine congrArg Host.Outcome.next (State.serve_refused h ?_)
  rw [hp]
  dsimp only
  rw [State.shiftOut_point, if_pos hs]

/-- Both requests name a point (R104, R127). -/
theorem exec_scanRequests_badParam (hp : pointOf point = none) :
    exec (.stopScan point) s = .next (s.answered 1 ⟨.badParam, []⟩) ∧
      exec (.acknowledgeHalt point) s = .next (s.answered 1 ⟨.badParam, []⟩) := by
  constructor <;>
    refine congrArg Host.Outcome.next (State.serve_refused h ?_) <;>
    rw [hp]

end

theorem axisNotTracking_iff (m : MeasuringPoint) (chs : Axes Channel) :
    m.axisNotTracking chs = true ↔ ∃ a, m.config.coeffs.get a ≠ 0 ∧ (chs.get a).state ≠ .tracking := by
  simp [MeasuringPoint.axisNotTracking, anyAxis_iff, MeasuringPoint.contributes_iff]

/-! ### The settings of CONFIGURE POINT (R45, R52) -/

section
variable (enabled : Byte) (coeffs : Axes (BitVec 32)) (md : StrobeMode) (tau width hyst : BitVec 16) (lead : BitVec 32)

theorem pointSettings_eq :
    pointSettings enabled (coeffsOf coeffs) md tau width hyst lead =
      { enabled := decide (enabled.toNat ≠ 0), coeffs := .ofFn fun a => (coeffs.get a).toInt, mode := md
        tau := min 4000 tau.toNat, width := min 3000 width.toNat, hyst := max 1 hyst.toNat
        lead := min 100000000 lead.toNat } := by
  have hh := hyst.isLt
  have htau : clampNat 0 Config.tauMax tau.toNat = min 4000 tau.toNat := by
    rw [clampNat_eq (by decide), Nat.zero_max]
  have hwidth : clampNat 0 Config.widthMax width.toNat = min 3000 width.toNat := by
    rw [clampNat_eq (by decide), Nat.zero_max]
  have hhyst : clampNat 1 65535 hyst.toNat = max 1 hyst.toNat := by
    rw [clampNat_eq (by decide)]
    omega
  rw [pointSettings, flagOf_eq, htau, hwidth, hhyst, Medium.clampDistance_eq]
  rfl

theorem pointClamped_iff (cfg : PointConfig) :
    pointClamped cfg tau width hyst lead = true ↔
      ¬(cfg.tau = tau.toNat ∧ cfg.width = width.toNat ∧ cfg.hyst = hyst.toNat ∧ cfg.lead = lead.toNat) := by
  simp only [pointClamped, Bool.or_eq_true, decide_eq_true_eq]
  tauto

end

/-- Settles O41. -/
theorem configurePointWritesAndEnables : Obligations.ConfigurePointWritesAndEnables := by
  intro s p point enabled coeffs mode md tau width hyst lead ht hp hm hc hn hs hoff m cfg status x vx
  have hcfg : pointSettings enabled (coeffsOf coeffs) md tau width hyst lead = cfg := pointSettings_eq ..
  have hstatus : acceptedStatus (pointClamped cfg tau width hyst lead) = status :=
    Medium.acceptedStatus_eq (pointClamped_iff tau width hyst lead cfg)
  have hno : coeffsOnOff (coeffsOf coeffs) s.channels = false := by
    rw [← Bool.not_eq_true, coeffsOnOff_iff]
    rintro ⟨a, ha, hao⟩
    exact hoff a ha hao
  have hexec := exec_configurePoint ht tau width hyst lead (pointOf_of hp) (modeOf_of hm) ⟨hc, hn⟩ hs hno
  rw [hcfg, hstatus] at hexec
  rw [hexec]
  refine ⟨fun he => ?_, fun he => ?_⟩
  · have hon : cfg.enabled = true := decide_eq_true he
    have hx : (m.configure cfg s.sampled) =
        { m with
          config := cfg, state := .idle, tracker := .noPulse, stbKept := m.stb, x := x, vx := vx
          direction := if m.state = .disabled then none else m.direction } := by
      have hcoeffs : ∀ a, cfg.coeffs.get a = (coeffs.get a).toInt := fun a => Axes.get_ofFn _ a
      unfold MeasuringPoint.configure
      rw [if_pos hon]
      simp only [MeasuringPoint.formPosition, rawX, formVx, hcoeffs]
      rfl
    rw [hx]
    rfl
  · have hon : cfg.enabled = false := decide_eq_false (not_not.2 he)
    have hx : (m.configure cfg s.sampled) =
        { m with config := cfg, state := .disabled, tracker := .noPulse, direction := none } := by
      unfold MeasuringPoint.configure
      rw [hon, if_neg (by decide)]
    rw [hx]
    rfl

/-- Settles O42. -/
theorem scansStartStopAndResume : Obligations.ScansStartStopAndResume := by
  refine ⟨fun s p point ht hp => ⟨fun first last stride hr hs htrack => ?_, fun hs => ?_⟩, fun s p point ht hp hs => ?_⟩
  · have hno : (s.point p).axisNotTracking s.channels = false := by
      rw [← Bool.not_eq_true, axisNotTracking_iff]
      rintro ⟨a, ha, hn⟩
      exact hn (htrack a ha)
    rw [exec_startScan ht stride (pointOf_of hp) hr hs hno, AxisRequests.clampByte_eq]
    rfl
  · exact exec_acknowledgeHalt ht (pointOf_of hp) hs
  · have hn : ¬((s.point p).state = .disabled ∨ (s.point p).state = .idle) := by
      rcases hs with hs | hs | hs <;> rw [hs] <;> decide
    have hcause : ((s.point p).closeStopped s.cu.stale .stopScan).cause = (s.point p).cause := by
      rcases (s.point p).closeStopped_cases s.cu.stale .stopScan with ⟨_, e⟩ | ⟨_, _, _, _, ⟨_, e⟩ | ⟨_, e⟩⟩ <;> rw [e]
    have hclosed := Windows.closeStopped_closed (s.point p) s.cu.stale Passes.outcome_stopScan .idle (s.point p).cause
    refine ⟨_, exec_stopScan ht (pointOf_of hp) hn, rfl, hcause, ?_⟩
    rw [← hcause] at hclosed
    exact hclosed

end Sys2Proof.Proofs.PointRequests

/-! Fields: what is read back of a record built of little-endian fields, and of a field built of flags or codes (R200, R201). -/

namespace Sys2Proof.Proofs.Fields

open Sys2Proof.Machine

/-! ### Little-endian fields (R200, R201) -/

/-- A field of `n` bytes holds its number modulo 256 to the `n`. -/
theorem leNat_leBytes (n : Nat) (v : Int) : (leNat (leBytes n v) : Int) = v % 256 ^ n := by
  induction n generalizing v with
  | zero => simp [leNat, leBytes]
  | succ n ih =>
    have hpow : (0 : Int) < 256 ^ n := by positivity
    have hbyte : ((BitVec.ofInt 8 v).toNat : Int) = v % 256 := by
      rw [BitVec.toNat_ofInt]
      exact Int.toNat_of_nonneg (Int.emod_nonneg v (by decide))
    have hsplit : v % 256 ^ (n + 1) = v % 256 + 256 * (v / 256 % 256 ^ n) := by
      have h1 := Int.emod_add_mul_ediv v 256
      have h2 := Int.emod_add_mul_ediv (v / 256) (256 ^ n)
      have hv : v = v % 256 + 256 * (v / 256 % 256 ^ n) + 256 ^ (n + 1) * (v / 256 / 256 ^ n) := by
        rw [pow_succ]
        linear_combination (-1 : Int) * h1 - 256 * h2
      have hlow := Int.emod_nonneg v (show (256 : Int) ≠ 0 by decide)
      have hlow' := Int.emod_lt_of_pos v (show (0 : Int) < 256 by decide)
      have hhigh := Int.emod_nonneg (v / 256) hpow.ne'
      have hhigh' := Int.emod_lt_of_pos (v / 256) hpow
      conv_lhs => rw [hv]
      rw [Int.add_mul_emod_self_left, Int.emod_eq_of_lt (by omega)]
      rw [pow_succ]
      omega
    rw [leBytes, leNat, hsplit]
    push_cast
    rw [hbyte, ih]

section
variable {w n : Nat}

/-- A field read as the bits it was built of. -/
theorem ofNat_leNat_leBytes (h : w = 8 * n) (v : Int) : BitVec.ofNat w (leNat (leBytes n v)) = BitVec.ofInt w v := by
  subst h
  have hpow : (256 : Int) ^ n = 2 ^ (8 * n) := by
    rw [pow_mul]
    norm_num
  have hv : (leNat (leBytes n v) : Int) = v % 2 ^ (8 * n) := by rw [leNat_leBytes, hpow]
  refine BitVec.eq_of_toNat_eq ?_
  rw [BitVec.toNat_ofNat, BitVec.toNat_ofInt]
  push_cast
  rw [← hv, Int.toNat_natCast]
  refine Nat.mod_eq_of_lt ?_
  have hlt := Int.emod_lt_of_pos v (show (0 : Int) < 2 ^ (8 * n) by positivity)
  rw [← hv] at hlt
  exact_mod_cast hlt

/-- The field at the front. -/
theorem fieldAt_head (h : w = 8 * n) (v : Int) (bs : List Byte) :
    fieldAt w n (leBytes n v ++ bs) 0 = BitVec.ofInt w v := by
  have ht : (leBytes n v ++ bs).take n = leBytes n v := by
    rw [List.take_append_of_le_length (by simp), List.take_of_length_le (by simp)]
  rw [fieldAt, List.drop_zero, ht, ofNat_leNat_leBytes h]

theorem fieldAt_self (h : w = 8 * n) (v : Int) : fieldAt w n (leBytes n v) 0 = BitVec.ofInt w v := by
  have := fieldAt_head h v []
  rwa [List.append_nil] at this

/-- A field that lies behind another part. -/
theorem fieldAt_append {a : List Byte} {off : Nat} (h : a.length ≤ off) (bs : List Byte) :
    fieldAt w n (a ++ bs) off = fieldAt w n bs (off - a.length) := by
  rw [fieldAt, fieldAt, List.drop_append, List.drop_eq_nil_of_le h, List.nil_append]

theorem fieldAt_skip {k off : Nat} (h : k ≤ off) (v : Int) (bs : List Byte) :
    fieldAt w n (leBytes k v ++ bs) off = fieldAt w n bs (off - k) := by
  rw [fieldAt_append (by simpa using h), leBytes_length]

/-- A field that lies in the front part. -/
theorem fieldAt_within {a : List Byte} {off : Nat} (h : off + n ≤ a.length) (bs : List Byte) :
    fieldAt w n (a ++ bs) off = fieldAt w n a off := by
  rw [fieldAt, fieldAt, List.drop_append_of_le_length (by omega), List.take_append_of_le_length (by simp; omega)]

/-- A field of a part that was cut out. -/
theorem fieldAt_take_drop {bs : List Byte} {i len off : Nat} (h : off + n ≤ len) :
    fieldAt w n ((bs.drop i).take len) off = fieldAt w n bs (i + off) := by
  rw [fieldAt, fieldAt, List.drop_take, List.take_take, List.drop_drop, min_eq_left (by omega)]

end

/-! ### Flags and codes in a field (R201) -/

/-- The number with the given digits, the lowest first. -/
def digitSum (b : Nat) : List Nat → Nat
  | [] => 0
  | d :: l => d + b * digitSum b l

@[simp] theorem digitSum_nil (b : Nat) : digitSum b [] = 0 := rfl

theorem digitSum_cons (b d : Nat) (l : List Nat) : digitSum b (d :: l) = d + b * digitSum b l := rfl

theorem digitSum_lt {b : Nat} {l : List Nat} (hl : ∀ d ∈ l, d < b) : digitSum b l < b ^ l.length := by
  induction l with
  | nil => simp
  | cons d l ih =>
    have hd : d < b := hl d (by simp)
    have ih := ih fun e he => hl e (by simp [he])
    calc digitSum b (d :: l) < b * (digitSum b l + 1) := by rw [digitSum_cons, Nat.mul_add]; omega
      _ ≤ b * b ^ l.length := Nat.mul_le_mul_left b ih
      _ = b ^ (d :: l).length := by rw [List.length_cons, pow_succ']

theorem digitSum_div_pow_mod {b : Nat} {l : List Nat} (hl : ∀ d ∈ l, d < b) (i : Nat) :
    digitSum b l / b ^ i % b = l.getD i 0 := by
  induction l generalizing i with
  | nil => simp
  | cons d l ih =>
    have hd : d < b := hl d (by simp)
    have ih := ih fun e he => hl e (by simp [he])
    rw [digitSum_cons]
    cases i with
    | zero => simp [Nat.add_mul_mod_self_left, Nat.mod_eq_of_lt hd]
    | succ i =>
      rw [pow_succ', ← Nat.div_div_eq_div_mul, Nat.add_mul_div_left _ _ (by omega), Nat.div_eq_of_lt hd, zero_add, ih]
      simp

/-- A number whose bits are the given flags, the lowest first. -/
def bitSum (l : List Bool) : Nat := digitSum 2 (l.map Bool.toNat)

theorem toNat_lt_two {l : List Bool} : ∀ d ∈ l.map Bool.toNat, d < 2 := by
  intro d hd
  obtain ⟨b, _, rfl⟩ := List.mem_map.1 hd
  cases b <;> decide

@[simp] theorem bitSum_nil : bitSum [] = 0 := rfl

theorem bitSum_cons (b : Bool) (l : List Bool) : bitSum (b :: l) = b.toNat + 2 * bitSum l := rfl

theorem bitSum_lt (l : List Bool) : bitSum l < 2 ^ l.length := by
  have := digitSum_lt (toNat_lt_two (l := l))
  rwa [List.length_map] at this

theorem testBit_bitSum (l : List Bool) (i : Nat) : (bitSum l).testBit i = l.getD i false := by
  have h := digitSum_div_pow_mod (toNat_lt_two (l := l)) i
  rw [Nat.testBit_eq_decide_div_mod_eq]
  have hm : (l.map Bool.toNat).getD i 0 = (l.getD i false).toNat := List.getD_map l false Bool.toNat
  unfold bitSum
  rw [h, hm]
  cases l.getD i false <;> rfl

/-- A flag of a field that is wide enough for its flags. -/
theorem getLsbD_ofNat_bitSum {w : Nat} (l : List Bool) {i : Nat} (h : i < w) :
    (BitVec.ofNat w (bitSum l)).getLsbD i = l.getD i false := by
  rw [BitVec.getLsbD_ofNat, decide_eq_true h, Bool.true_and, testBit_bitSum]

theorem toNat_ofNat_bitSum_lt {w : Nat} (l : List Bool) :
    (BitVec.ofNat w (bitSum l)).toNat < 2 ^ l.length := by
  have hb := bitSum_lt l
  rw [BitVec.toNat_ofNat]
  exact lt_of_le_of_lt (Nat.mod_le _ _) hb

theorem boolBit_eq (b : Bool) (k : Nat) : boolBit b k = 2 ^ k * b.toNat := by
  cases b <;> simp [boolBit]

end Sys2Proof.Proofs.Fields

/-! The notice, status and table requests, accepted and refused (R82 to R95, R175 to R179, R197, R198, R201). -/

namespace Sys2Proof.Proofs.PortRequests

open Sys2Proof.Machine

/-! ### The pending set and the routes as fields (R175, R201) -/

theorem mem_all (k : EventKind) : k ∈ EventKind.all := by cases k <;> decide

/-- The kinds stand in the order of their bits. -/
theorem getD_all_map {α : Type} (f : EventKind → α) (k : EventKind) (d : α) : (EventKind.all.map f).getD k.bit d = f k := by
  cases k <;> rfl

theorem sum_pow_bit (b : Nat) (c : EventKind → Nat) :
    (EventKind.all.map fun k => b ^ k.bit * c k).sum = Fields.digitSum b (EventKind.all.map c) := by
  simp only [EventKind.all, EventKind.bit, List.map_cons, List.map_nil, List.sum_cons, List.sum_nil, Fields.digitSum_cons,
    Fields.digitSum_nil]
  ring

theorem pendingField_eq (flags : Kinds Bool) :
    flags.pendingField = Fields.bitSum (EventKind.all.map flags.get) := by
  have hbit : (fun k => boolBit (flags.get k) k.bit) = fun k => 2 ^ k.bit * (flags.get k).toNat :=
    funext fun k => Fields.boolBit_eq _ _
  rw [Kinds.pendingField, hbit, sum_pow_bit, Fields.bitSum, List.map_map]
  rfl

theorem pendingField_lt (flags : Kinds Bool) : flags.pendingField < 1024 := by
  have h := Fields.bitSum_lt (EventKind.all.map flags.get)
  have hlen : (EventKind.all.map flags.get).length = 10 := rfl
  rw [hlen, ← pendingField_eq] at h
  exact h.trans_eq (by norm_num)

theorem routeField_eq (routes : Kinds Route) :
    routes.routeField = Fields.digitSum 4 (EventKind.all.map fun k => (routes.get k).code) := by
  have hcode : (fun k : EventKind => (routes.get k).code * 2 ^ (2 * k.bit)) = fun k => 4 ^ k.bit * (routes.get k).code :=
    funext fun k => by rw [pow_mul, Nat.mul_comm, show 2 ^ 2 = 4 from rfl]
  rw [Kinds.routeField, hcode, sum_pow_bit]

theorem routeCode_lt (r : Route) : r.code < 4 := by cases r <;> decide

theorem routeCodes_lt (routes : Kinds Route) : ∀ d ∈ EventKind.all.map fun k => (routes.get k).code, d < 4 := by
  intro d hd
  obtain ⟨k, _, rfl⟩ := List.mem_map.1 hd
  exact routeCode_lt _

/-- The fields of a TAKE NOTICES response (R177, R204). -/
theorem reading_fields (n : Notices) :
    n.reading.length = 5 ∧ u16 n.reading 0 = BitVec.ofNat 16 n.flags.pendingField ∧
      u24 n.reading 2 = BitVec.ofNat 24 n.routes.routeField := by
  refine ⟨by simp [Notices.reading, natField], ?_, ?_⟩
  · rw [u16, Notices.reading, natField, Fields.fieldAt_head (by decide), BitVec.ofInt_natCast]
  · rw [u24, Notices.reading, natField, natField, Fields.fieldAt_skip (by decide), Fields.fieldAt_self (by decide),
      BitVec.ofInt_natCast]

theorem routeField_lt (routes : Kinds Route) : routes.routeField < 1048576 := by
  have h := Fields.digitSum_lt (routeCodes_lt routes)
  have hlen : (EventKind.all.map fun k => (routes.get k).code).length = 10 := rfl
  rw [hlen, ← routeField_eq] at h
  exact h.trans_eq (by norm_num)

theorem routeOf_eq (n : Nat) :
    routeOf n = match n with | 0 => .nowhere | 1 => .a | 2 => .b | _ => .ab := by
  unfold routeOf
  match n with
  | 0 | 1 | 2 => rfl
  | n + 3 => simp

theorem hasA_iff (r : Route) : r.hasA = true ↔ r = .a ∨ r = .ab := by cases r <;> simp [Route.hasA]
theorem hasB_iff (r : Route) : r.hasB = true ↔ r = .b ∨ r = .ab := by cases r <;> simp [Route.hasB]

/-- A line is asserted while some kind that is pending is routed to it (R175). -/
theorem any_all_iff (f : EventKind → Bool) : EventKind.all.any f = true ↔ ∃ k, f k = true := by
  rw [List.any_eq_true]
  exact ⟨fun ⟨k, _, h⟩ => ⟨k, h⟩, fun ⟨k, h⟩ => ⟨k, mem_all k, h⟩⟩

/-! ### TAKE NOTICES, SET ROUTES and READ STATUS (R177, R179, R197) -/

section
variable {s : State} (h : s.TakesRequests)
include h

theorem exec_takeNotices {mask : BitVec 16} (hm : mask.toNat < 1024) :
    exec (.takeNotices mask) s =
      .next ((s.clearNamed mask).answered 2 { status := .ok, data := s.notices.reading }) := by
  refine congrArg Host.Outcome.next (State.serve_accepted h ?_ rfl)
  rw [if_neg (by omega)]
  rfl

theorem exec_takeNotices_badParam {mask : BitVec 16} (hm : 1024 ≤ mask.toNat) :
    exec (.takeNotices mask) s = .next (s.answered 2 ⟨.badParam, []⟩) := by
  refine congrArg Host.Outcome.next (State.serve_refused h ?_)
  rw [if_pos hm]

theorem exec_setRoutes (routes : BitVec 24) :
    exec (.setRoutes routes) s =
      .next ({ s with notices := { s.notices with routes := routesOf routes } }.answered 3 { status := .ok, data := [] }) :=
  congrArg Host.Outcome.next (State.serve_accepted h rfl rfl)

variable {clear : Byte}

theorem exec_readStatus (hc : clear.toNat = 0) :
    exec (.readStatus clear) s = .next (s.answered 1 { status := .ok, data := s.statusRecord }) := by
  have h0 : clear = 0 := (byte_eq_iff clear 0 (by decide)).2 hc
  refine congrArg Host.Outcome.next (State.serve_accepted h ?_ rfl)
  rw [if_pos h0]
  rfl

/-- Clear option 1: the record of the counters as they stood, then all of them at 0. -/
theorem exec_readStatus_clear (hc : clear.toNat = 1) :
    exec (.readStatus clear) s =
      .next (s.clearCounters.answered 1 { status := .ok, data := s.statusRecord }) := by
  have h0 : clear ≠ 0 := fun e => by rw [(byte_eq_iff clear 0 (by decide)).1 e] at hc; cases hc
  have h1 : clear = 1 := (byte_eq_iff clear 1 (by decide)).2 hc
  refine congrArg Host.Outcome.next (State.serve_accepted_of_edges h ?_ rfl)
  rw [if_neg h0, if_pos h1]
  rfl

theorem exec_readStatus_badParam (hc : 1 < clear.toNat) :
    exec (.readStatus clear) s = .next (s.answered 1 ⟨.badParam, []⟩) := by
  have h0 : clear ≠ 0 := fun e => by rw [(byte_eq_iff clear 0 (by decide)).1 e] at hc; cases hc
  have h1 : clear ≠ 1 := fun e => by rw [(byte_eq_iff clear 1 (by decide)).1 e] at hc; omega
  refine congrArg Host.Outcome.next (State.serve_refused h ?_)
  rw [if_neg h0, if_neg h1]

/-! ### The table requests (R82, R85 to R95, R198) -/

variable {p : Point} {point : Byte} (key : BitVec 16) {nominal : BitVec 48} (halfWidth : BitVec 32) (hold trigger : Byte)

theorem exec_loadEntry {d : Point × Int} (hd : definitionCheck point nominal = .ok d) :
    exec (.loadEntry point key nominal halfWidth hold trigger) s =
      .next (s.asking 15 (.load d.1 key.toNat d.2 (clampHalfWidth halfWidth) (flagOf hold) (flagOf trigger)
        (decide (clampHalfWidth halfWidth ≠ halfWidth.toNat)))) :=
  congrArg Host.Outcome.next (State.serveTable_accepted h (by rw [hd]; rfl))

theorem exec_amendEntry {d : Point × Int} (hd : definitionCheck point nominal = .ok d) :
    exec (.amendEntry point key nominal halfWidth hold trigger) s =
      .next (s.asking 15 (.amend d.1 key.toNat d.2 (clampHalfWidth halfWidth) (flagOf hold) (flagOf trigger)
        (decide (clampHalfWidth halfWidth ≠ halfWidth.toNat)))) :=
  congrArg Host.Outcome.next (State.serveTable_accepted h (by rw [hd]; rfl))

/-- LOAD ENTRY and AMEND ENTRY are refused by the same checks (R85, R87). -/
theorem exec_definition_badParam (hd : definitionCheck point nominal = .error .badParam) :
    exec (.loadEntry point key nominal halfWidth hold trigger) s = .next (s.answered 15 ⟨.badParam, []⟩) ∧
      exec (.amendEntry point key nominal halfWidth hold trigger) s = .next (s.answered 15 ⟨.badParam, []⟩) :=
  ⟨congrArg Host.Outcome.next (State.serveTable_refused h (by rw [hd]; rfl)),
    congrArg Host.Outcome.next (State.serveTable_refused h (by rw [hd]; rfl))⟩

/-- The requests of one key ask for their access when their point is one (R89, R94, R95). -/
theorem exec_keyRequests (hp : pointCheck point = .ok p) :
    exec (.clearEntry point key) s = .next (s.asking 3 (.clear p key.toNat)) ∧
      exec (.lookupEntry point key) s = .next (s.asking 3 (.lookup p key.toNat)) ∧
      exec (.sweepEntries point key) s = .next (s.asking 3 (.sweep p key.toNat 0 [])) :=
  ⟨congrArg Host.Outcome.next (State.serveTable_accepted h (by rw [hp]; rfl)),
    congrArg Host.Outcome.next (State.serveTable_accepted h (by rw [hp]; rfl)),
    congrArg Host.Outcome.next (State.serveTable_accepted h (by rw [hp]; rfl))⟩

theorem exec_keyRequests_badParam (hp : pointCheck point = .error .badParam) :
    exec (.clearEntry point key) s = .next (s.answered 3 ⟨.badParam, []⟩) ∧
      exec (.lookupEntry point key) s = .next (s.answered 3 ⟨.badParam, []⟩) ∧
      exec (.sweepEntries point key) s = .next (s.answered 3 ⟨.badParam, []⟩) :=
  ⟨congrArg Host.Outcome.next (State.serveTable_refused h (by rw [hp]; rfl)),
    congrArg Host.Outcome.next (State.serveTable_refused h (by rw [hp]; rfl)),
    congrArg Host.Outcome.next (State.serveTable_refused h (by rw [hp]; rfl))⟩

variable {first last : BitVec 16}

theorem exec_retireEntries (hp : pointCheck point = .ok p) (hr : first.toNat ≤ last.toNat) :
    exec (.retireEntries point first last) s = .next (s.asking 5 (.retire p first.toNat last.toNat 0 0)) :=
  congrArg Host.Outcome.next (State.serveTable_accepted h (by rw [if_neg (by omega), hp]; rfl))

theorem exec_retireEntries_badParam (hb : pointCheck point = .error .badParam ∨ last.toNat < first.toNat) :
    exec (.retireEntries point first last) s = .next (s.answered 5 ⟨.badParam, []⟩) := by
  refine congrArg Host.Outcome.next (State.serveTable_refused h ?_)
  by_cases hr : last.toNat < first.toNat
  · rw [if_pos hr]
  · rw [if_neg hr, hb.resolve_right hr]
    rfl

theorem exec_restart : exec .restart s = .next (s.asking 0 .restart) :=
  congrArg Host.Outcome.next (State.serveTable_accepted h rfl)

end

theorem pointCheck_of {point : Byte} {p : Point} (h : point.toNat = if p = .mp0 then 0 else 1) :
    pointCheck point = .ok p := by
  rw [pointCheck, pointOf_of h]

theorem pointCheck_of_gt {point : Byte} (h : 1 < point.toNat) : pointCheck point = .error .badParam := by
  rw [pointCheck, pointOf_of_gt h]

theorem nominalInRange_iff (v : Int) : nominalInRange v = true ↔ -140737488355327 ≤ v ∧ v ≤ 140737488355327 := by
  simp [nominalInRange]

theorem definitionCheck_of {point : Byte} {p : Point} {nominal : BitVec 48} (h : point.toNat = if p = .mp0 then 0 else 1)
    (hn : -140737488355327 ≤ nominal.toInt ∧ nominal.toInt ≤ 140737488355327) :
    definitionCheck point nominal = .ok (p, nominal.toInt) := by
  unfold definitionCheck
  rw [pointOf_of h]
  dsimp only
  rw [if_pos ((nominalInRange_iff _).2 hn)]

theorem definitionCheck_badParam {point : Byte} {nominal : BitVec 48}
    (h : 1 < point.toNat ∨ nominal.toInt < -140737488355327 ∨ 140737488355327 < nominal.toInt) :
    definitionCheck point nominal = .error .badParam := by
  unfold definitionCheck
  cases hp : pointOf point with
  | none => rfl
  | some p =>
    dsimp only
    rcases h with h | h
    · rw [pointOf_of_gt h] at hp
      cases hp
    · rw [if_neg fun hn => by have := (nominalInRange_iff _).1 hn; omega]

theorem clampHalfWidth_eq (w : BitVec 32) : clampHalfWidth w = max 1000 (min 1000000000 w.toNat) :=
  clampNat_eq (by decide) _

/-- Settles O43. -/
theorem readStatusReportsThenClears : Obligations.ReadStatusReportsThenClears :=
  fun _ _ ht => ⟨exec_readStatus ht, exec_readStatus_clear ht⟩

/-- Settles O44. -/
theorem noticesAreTakenAndRouted : Obligations.NoticesAreTakenAndRouted := by
  refine ⟨fun s ht => ⟨fun mask hm => ?_, fun routes => ?_⟩, fun n => ⟨?_, ?_⟩,
    rfl, rfl, rfl, rfl, rfl, rfl, rfl, rfl, rfl, rfl⟩
  · obtain ⟨hlen, hpending, hroutes⟩ := reading_fields s.notices
    refine ⟨s.clearNamed mask, s.notices.reading, exec_takeNotices ht hm, rfl, fun k => Kinds.get_ofFn _ k, hlen,
      fun k => ?_, ?_, fun k => ?_, ?_⟩
    · rw [hpending, pendingField_eq, Fields.getLsbD_ofNat_bitSum _ (by cases k <;> decide), getD_all_map]
    · rw [hpending, BitVec.toNat_ofNat]
      exact (Nat.mod_le _ _).trans_lt (pendingField_lt _)
    · rw [hroutes, BitVec.toNat_ofNat, Nat.mod_eq_of_lt ((routeField_lt _).trans (by norm_num)), routeField_eq, pow_mul]
      refine (Fields.digitSum_div_pow_mod (routeCodes_lt _) _).trans ?_
      refine (getD_all_map (fun k => (s.notices.routes.get k).code) k 0).trans ?_
      cases s.notices.routes.get k <;> rfl
    · rw [hroutes, BitVec.toNat_ofNat]
      exact (Nat.mod_le _ _).trans_lt (routeField_lt _)
  · refine ⟨_, exec_setRoutes ht routes, rfl, fun k => ?_⟩
    refine (Kinds.get_ofFn _ k).trans ((routeOf_eq _).trans ?_)
    generalize routes.toNat / 2 ^ (2 * k.bit) % 4 = n
    match n with
    | 0 | 1 | 2 => rfl
    | n + 3 => rfl
  · rw [Notices.noteA, any_all_iff]
    simp only [Bool.and_eq_true, hasA_iff]
  · rw [Notices.noteB, any_all_iff]
    simp only [Bool.and_eq_true, hasB_iff]

/-- Settles O45. -/
theorem tableRequestsAskForTheirAccess : Obligations.TableRequestsAskForTheirAccess := by
  intro s p point ht hp
  refine ⟨fun key nominal halfWidth hold trigger hlow hhigh => ?_, fun key => exec_keyRequests ht key (pointCheck_of hp),
    fun first last hr => exec_retireEntries ht (pointCheck_of hp) hr, exec_restart ht⟩
  have hd := definitionCheck_of hp ⟨hlow, hhigh⟩
  dsimp only
  rw [exec_loadEntry ht key halfWidth hold trigger hd, exec_amendEntry ht key halfWidth hold trigger hd, clampHalfWidth_eq,
    flagOf_eq, flagOf_eq]
  exact ⟨rfl, rfl⟩

end Sys2Proof.Proofs.PortRequests

/-! Requests that their checks refuse: the status of the first failing check, and nothing else (R17, R22, R31, R45, R82, R85 to R95, R102,
R104, R127, R177, R190, R197). -/

namespace Sys2Proof.Proofs.Refusals

open Sys2Proof.Machine

theorem axisSettingsValid_eq_false {wavelength : BitVec 32} {fold : Byte}
    (h : wavelength.toNat < 400000000 ∨ 1100000000 < wavelength.toNat ∨ fold.toNat = 0 ∨ 2 < fold.toNat) :
    axisSettingsValid wavelength fold = false := by
  rw [← Bool.not_eq_true, Channels.axisSettingsValid_iff]
  unfold Config.lambdaMin Config.lambdaMax
  omega

theorem countInRange_eq_false {v : Int} (h : v < -549755813887 ∨ 549755813887 < v) : countInRange v = false := by
  rw [← Bool.not_eq_true, Channels.countInRange_iff]
  unfold Config.countMax
  omega

/-- The checks of R22 on the axis itself, refused. -/
theorem presettable_eq_false {s : State} {a : Axis}
    (h : (s.channels.get a).state = .off ∨ (s.channels.get a).sigok = false ∨ s.refok = false ∨
      (s.channels.get a).lastPhase = none ∨ s.lostNow.get a = true) : s.presettable a = false := by
  rw [← Bool.not_eq_true, AxisRequests.presettable_iff]
  rintro ⟨h1, h2, h3, h4, h5⟩
  rcases h with h | h | h | h | h
  · exact h1 h
  · rw [h] at h2; cases h2
  · rw [h] at h3; cases h3
  · exact h4 h
  · rw [h] at h5; cases h5

/-- The parameters of CONFIGURE POINT, refused (R45). -/
theorem pointParameters_bad {point enabled mode : Byte} {coeffs : Axes (BitVec 32)}
    (h : 1 < point.toNat ∨ 3 < mode.toNat ∨
      (∃ a, (coeffs.get a).toInt < -2097152 ∨ 2097152 < (coeffs.get a).toInt) ∨
      (enabled.toNat ≠ 0 ∧ ∀ a, (coeffs.get a).toInt = 0)) :
    pointOf point = none ∨ modeOf mode = none ∨ ¬PointRequests.CoeffsPass coeffs enabled := by
  rcases h with h | h | ⟨a, h⟩ | ⟨h, hz⟩
  · exact .inl (pointOf_of_gt h)
  · exact .inr (.inl (PointRequests.modeOf_of_gt h))
  · refine .inr (.inr fun hc => ?_)
    have := hc.1 a
    omega
  · refine .inr (.inr fun hc => ?_)
    obtain ⟨a, ha⟩ := hc.2 h
    exact ha (hz a)

/-- And passed. -/
theorem pointParameters_good {point enabled mode : Byte} {coeffs : Axes (BitVec 32)}
    (h : ¬(1 < point.toNat ∨ 3 < mode.toNat ∨
      (∃ a, (coeffs.get a).toInt < -2097152 ∨ 2097152 < (coeffs.get a).toInt) ∨
      (enabled.toNat ≠ 0 ∧ ∀ a, (coeffs.get a).toInt = 0))) :
    (∃ md, modeOf mode = some md) ∧ PointRequests.CoeffsPass coeffs enabled := by
  push Not at h
  obtain ⟨_, hm, hc, hz⟩ := h
  obtain ⟨md, hmd⟩ := PointRequests.modeCode_of_le hm
  exact ⟨⟨md, PointRequests.modeOf_of hmd⟩, hc, hz⟩

/-- Settles O46: each request's checks in their order. -/
theorem refusedAxisAndPointRequests : Obligations.RefusedAxisAndPointRequests := by
  intro s ht
  refine ⟨fun axis fitted wavelength fold invert drop => ⟨fun h => ?_, fun a ha hlow hhigh hf hu => ?_⟩,
    fun axis value => ⟨fun h => ?_, fun a ha hlow hhigh => ⟨fun h => ?_, fun h1 h2 h3 h4 h5 hu => ?_⟩⟩,
    fun generation mask w hm => ?_, ?_⟩
  · exact AxisRequests.exec_configureAxis_badParam ht fitted invert drop (h.imp id axisSettingsValid_eq_false)
  · exact AxisRequests.exec_configureAxis_pointState ht fitted invert drop ha
      ((Channels.axisSettingsValid_iff _ _).2 ⟨⟨hlow, hhigh⟩, hf⟩) (AxisRequests.axisInUse_of hu)
  · exact AxisRequests.exec_presetAxis_badParam ht (h.imp id countInRange_eq_false)
  · exact AxisRequests.exec_presetAxis_axisState ht ha ((Channels.countInRange_iff _).2 ⟨hlow, hhigh⟩)
      (presettable_eq_false h)
  · exact AxisRequests.exec_presetAxis_pointState ht ha ((Channels.countInRange_iff _).2 ⟨hlow, hhigh⟩)
      (AxisRequests.presettable_iff.2 ⟨h1, h2, h3, h4, h5⟩) (AxisRequests.axisInUse_of hu)
  · refine congrArg Host.Outcome.next (State.serve_refused ht ?_)
    rw [if_pos hm]
  · intro point enabled coeffs mode tau width hyst lead bad
    refine ⟨fun h => PointRequests.exec_configurePoint_badParam ht tau width hyst lead (pointParameters_bad h),
      fun p hgood hp => ?_⟩
    obtain ⟨⟨md, hm⟩, hc⟩ := pointParameters_good hgood
    refine ⟨fun hs => ?_, fun hs hoff => ?_⟩
    · refine PointRequests.exec_configurePoint_pointState ht tau width hyst lead (pointOf_of hp) hm hc ?_
      rcases hs with hs | hs | hs <;> rw [hs] <;> decide
    · exact PointRequests.exec_configurePoint_axisState ht tau width hyst lead (pointOf_of hp) hm hc hs
        ((PointRequests.coeffsOnOff_iff coeffs _).2 hoff)

/-- Settles O47: each request's checks in their order. -/
theorem refusedScanTableAndPortRequests : Obligations.RefusedScanTableAndPortRequests := by
  intro s ht
  refine ⟨fun point first last stride => ⟨fun h => ⟨?_, ?_⟩, fun p hp hr => ⟨fun hs => ?_, fun hs ha => ?_⟩⟩,
    fun point => ⟨fun h => PointRequests.exec_scanRequests_badParam ht (pointOf_of_gt h), fun p hp => ⟨fun hs => ?_, fun hs => ?_⟩⟩,
    fun point key nominal halfWidth hold trigger => ⟨fun h => ?_, fun h => ?_⟩, fun clear hc => ?_, fun mask hm => ?_⟩
  · exact PointRequests.exec_startScan_badParam ht stride (h.imp pointOf_of_gt id)
  · exact PortRequests.exec_retireEntries_badParam ht (h.imp PortRequests.pointCheck_of_gt id)
  · exact PointRequests.exec_startScan_pointState ht stride (pointOf_of hp) hr hs
  · exact PointRequests.exec_startScan_axisState ht stride (pointOf_of hp) hr hs
      ((PointRequests.axisNotTracking_iff _ _).2 ha)
  · exact PointRequests.exec_stopScan_pointState ht (pointOf_of hp) hs
  · exact PointRequests.exec_acknowledgeHalt_pointState ht (pointOf_of hp) hs
  · exact PortRequests.exec_definition_badParam ht key halfWidth hold trigger (PortRequests.definitionCheck_badParam h)
  · exact PortRequests.exec_keyRequests_badParam ht key (PortRequests.pointCheck_of_gt h)
  · exact PortRequests.exec_readStatus_badParam ht hc
  · exact PortRequests.exec_takeNotices_badParam ht hm

end Sys2Proof.Proofs.Refusals

/-! The records that the host reads, field by field (R204 to R208). -/

namespace Sys2Proof.Proofs.Records

open Sys2Proof.Machine

/-! ### Records as lists of fields (R201) -/

/-- The bytes of fields in order, each given by its number of bytes and what it holds. -/
def layout : List (Nat × Int) → List Byte
  | [] => []
  | f :: l => leBytes f.1 f.2 ++ layout l

/-- Where field `i` of a layout begins, its first field beginning at `start`. -/
def offset : Nat → List (Nat × Int) → Nat → Nat
  | start, [], _ => start
  | start, _ :: _, 0 => start
  | start, f :: l, i + 1 => offset (start + f.1) l i

@[simp] theorem layout_nil : layout [] = [] := rfl

theorem layout_cons (f : Nat × Int) (l : List (Nat × Int)) : layout (f :: l) = leBytes f.1 f.2 ++ layout l := rfl

theorem layout_length (l : List (Nat × Int)) : (layout l).length = (l.map Prod.fst).sum := by
  induction l with
  | nil => rfl
  | cons f l ih => rw [layout_cons, List.length_append, leBytes_length, ih, List.map_cons, List.sum_cons]

theorem offset_eq_add (start : Nat) (l : List (Nat × Int)) (i : Nat) : offset start l i = start + offset 0 l i := by
  induction l generalizing start i with
  | nil => simp [offset]
  | cons f l ih =>
    cases i with
    | zero => rfl
    | succ i =>
      rw [offset, offset, ih, ih (0 + f.1)]
      omega

/-- A field of a layout, read where it begins. -/
theorem fieldAt_layout {w n off : Nat} {v : Int} (l : List (Nat × Int)) (i : Nat) (hi : l[i]? = some (n, v))
    (ho : offset 0 l i = off) (hw : w = 8 * n) (rest : List Byte) :
    fieldAt w n (layout l ++ rest) off = BitVec.ofInt w v := by
  subst ho
  induction l generalizing i with
  | nil => simp at hi
  | cons f l ih =>
    rw [layout_cons, List.append_assoc]
    cases i with
    | zero =>
      cases hi
      exact Fields.fieldAt_head hw _ _
    | succ i =>
      rw [offset, offset_eq_add, Nat.zero_add, Fields.fieldAt_skip (by omega), Nat.add_sub_cancel_left]
      exact ih i hi

section
variable {w n off : Nat} {l : List (Nat × Int)} (i : Nat)

/-- A field of a record that is a layout. -/
theorem fieldAt_of_layout {v : Int} {bs : List Byte} (h : bs = layout l) (hi : l[i]? = some (n, v))
    (ho : offset 0 l i = off) (hw : w = 8 * n) : fieldAt w n bs off = BitVec.ofInt w v := by
  have := fieldAt_layout l i hi ho hw []
  rwa [List.append_nil, ← h] at this

/-- A field that holds a natural number. -/
theorem fieldAt_of_layout_nat {v : Nat} {bs : List Byte} (h : bs = layout l) (hi : l[i]? = some (n, (v : Int)))
    (ho : offset 0 l i = off) (hw : w = 8 * n) : fieldAt w n bs off = BitVec.ofNat w v := by
  rw [fieldAt_of_layout i h hi ho hw, BitVec.ofInt_natCast]

end

/-! ### Parts cut out of a record -/

/-- The part between a front and a rest. -/
theorem take_drop_middle {α : Type} {a b c : List α} {i len : Nat} (ha : a.length = i) (hb : b.length = len) :
    ((a ++ b ++ c).drop i).take len = b := by
  subst ha hb
  rw [List.append_assoc, List.drop_left, List.take_left]

/-- One of several parts of the same length. -/
theorem take_drop_flatMap {α β : Type} {f : α → List β} {k : Nat} (hf : ∀ x, (f x).length = k) {l : List α} {i : Nat} {x : α}
    (hi : l[i]? = some x) : ((l.flatMap f).drop (k * i)).take k = f x := by
  induction l generalizing i with
  | nil => simp at hi
  | cons y l ih =>
    rw [List.flatMap_cons]
    cases i with
    | zero =>
      cases hi
      rw [Nat.mul_zero, List.drop_zero, ← hf x, List.take_left]
    | succ i =>
      have hk : k * (i + 1) = (f y).length + k * i := by rw [hf, Nat.mul_succ, Nat.add_comm]
      rw [hk, ← List.drop_drop, List.drop_left]
      exact ih hi

/-! ### The axis reading (R205) -/

section
variable (c : Channel) (refok : Bool)

theorem reading_eq_layout :
    c.reading refok =
      layout [(1, c.state.code), (1, c.lostCause.code), (1, c.hold), (1, c.dropouts), (1, c.levels refok), (6, c.count),
        (2, c.vel), (6, c.position), (6, c.kc)] := by
  simp [Channel.reading, natField, layout]

theorem reading_length : (c.reading refok).length = 25 := by
  rw [reading_eq_layout]
  simp [layout_length]

theorem levels_eq : c.levels refok = Fields.bitSum [c.sigok, refok, c.seeded] := by
  simp only [Channel.levels, Fields.boolBit_eq, Fields.bitSum_cons, Fields.bitSum_nil]
  omega

end

/-- The six readings follow one another. -/
theorem axesReading_part (s : State) (a : Axis) :
    (s.axesReading.drop (25 * a.val)).take 25 = (s.channels.get a).reading s.refok := by
  refine take_drop_flatMap (fun c => reading_length c s.refok) ?_
  fin_cases a <;> rfl

/-! ### Flags (R201) -/

theorem flag_of {bs : List Byte} {off : Nat} {l : List Bool} (h : u8 bs off = BitVec.ofNat 8 (Fields.bitSum l)) {i : Nat}
    (hi : i < 8) : (u8 bs off).getLsbD i = l.getD i false := by
  rw [h, Fields.getLsbD_ofNat_bitSum _ hi]

theorem flags_lt {bs : List Byte} {off : Nat} {l : List Bool} (h : u8 bs off = BitVec.ofNat 8 (Fields.bitSum l)) :
    (u8 bs off).toNat < 2 ^ l.length := by
  rw [h]
  exact Fields.toNat_ofNat_bitSum_lt l

/-! ### The entry record (R76, R206) -/

/-- The fields of one direction's block (R206). -/
def blockFields (d : DirStats) : List (Nat × Int) :=
  [(2, d.n), (8, d.sum), (4, (d.extremes.map Extremes.min).getD 0), (4, (d.extremes.map Extremes.max).getD 0),
    (4, d.mean.getD 0), (4, d.spread.getD 0)]

/-- The fields of an entry record (R206). -/
def entryFields (slot revision : Nat) (e : Entry) (state : Nat) : List (Nat × Int) :=
  ([(2, slot), (2, revision), (1, pointCode e.point), (2, e.key), (6, e.nominal), (4, e.halfWidth), (1, e.flags), (1, state),
    (1, e.results.presence), (1, e.results.lastOutcomeCode), (1, e.results.lastDirectionCode),
    (4, e.results.lastDeviation.getD 0), (1, e.results.missCount), (1, e.results.rejectCount),
    (2, e.results.passTotal)] : List (Nat × Int)) ++
  blockFields e.results.forward ++ blockFields e.results.reverse ++
  [(6, e.results.reversal.getD 0), (8, e.lower), (8, e.upper)]

theorem entryRecord_eq_layout (slot revision : Nat) (e : Entry) (state : Nat) :
    entryRecord slot revision e state = layout (entryFields slot revision e state) := by
  unfold entryRecord
  simp [DirStats.block, natField, entryFields, blockFields, layout]

theorem entryFlags_eq (e : Entry) :
    e.flags = Fields.bitSum [e.hold, e.trigger, e.results.staleSeen, e.results.saturated] := by
  simp only [Entry.flags, Fields.boolBit_eq, Fields.bitSum_cons, Fields.bitSum_nil]
  omega

theorem presence_eq (r : Results) :
    r.presence = Fields.bitSum
      [decide (0 < r.forward.n), decide (0 < r.reverse.n), r.reversal.isSome, r.lastDeviation.isSome] := by
  simp only [Results.presence, Fields.boolBit_eq, Fields.bitSum_cons, Fields.bitSum_nil]
  omega

theorem mean_of_zero {d : DirStats} (h : d.n = 0) : d.mean = none := if_pos h

theorem mean_of_pos {d : DirStats} (h : 0 < d.n) : d.mean = some (roundDiv d.sum d.n) := if_neg (by omega)

/-- The reversal difference is present when both means are (R76). -/
theorem reversal_eq (r : Results) :
    r.reversal =
      if 0 < r.forward.n ∧ 0 < r.reverse.n then
        some (roundDiv r.forward.sum r.forward.n - roundDiv r.reverse.sum r.reverse.n)
      else none := by
  unfold Results.reversal
  obtain hf | hf := Nat.eq_zero_or_pos r.forward.n
  · rw [mean_of_zero hf, if_neg (by omega)]
  · obtain hr | hr := Nat.eq_zero_or_pos r.reverse.n
    · rw [mean_of_pos hf, mean_of_zero hr, if_neg (by omega)]
    · rw [mean_of_pos hf, mean_of_pos hr, if_pos ⟨hf, hr⟩]

theorem reversal_isSome_iff (r : Results) : r.reversal.isSome = true ↔ 0 < r.forward.n ∧ 0 < r.reverse.n := by
  rw [reversal_eq]
  split_ifs with h <;> simp [h]

theorem lastDeviation_isSome_iff (r : Results) :
    r.lastDeviation.isSome = true ↔ ∃ v dir, r.lastPass = some { outcome := .matched v, direction := dir } := by
  unfold Results.lastDeviation
  rcases r.lastPass with _ | ⟨o, dir⟩
  · simp
  · cases o <;> simp

/-- A block as the statements read it: what is absent is 0 (R74, R76, R206). -/
theorem block_of_fields {d : DirStats} (ok : StatsOk d) {bs : List Byte} {off : Nat}
    (h0 : u16 bs off = BitVec.ofNat 16 d.n) (h1 : fieldAt 64 8 bs (off + 2) = BitVec.ofInt 64 d.sum)
    (h2 : u32 bs (off + 10) = BitVec.ofInt 32 ((d.extremes.map Extremes.min).getD 0))
    (h3 : u32 bs (off + 14) = BitVec.ofInt 32 ((d.extremes.map Extremes.max).getD 0))
    (h4 : u32 bs (off + 18) = BitVec.ofInt 32 (d.mean.getD 0))
    (h5 : u32 bs (off + 22) = BitVec.ofInt 32 (d.spread.getD 0)) :
    u16 bs off = BitVec.ofNat 16 d.n ∧ fieldAt 64 8 bs (off + 2) = BitVec.ofInt 64 d.sum ∧
      (d.n = 0 → u32 bs (off + 10) = 0 ∧ u32 bs (off + 14) = 0 ∧ u32 bs (off + 18) = 0 ∧ u32 bs (off + 22) = 0) ∧
      ∀ x, d.extremes = some x →
        u32 bs (off + 10) = BitVec.ofInt 32 x.min ∧ u32 bs (off + 14) = BitVec.ofInt 32 x.max ∧
          u32 bs (off + 18) = BitVec.ofInt 32 (roundDiv d.sum d.n) ∧
          u32 bs (off + 22) = BitVec.ofInt 32 (x.max - x.min) := by
  refine ⟨h0, h1, fun hn => ?_, fun x hx => ?_⟩
  · have he : d.extremes = none := (ok.none_yet hn).2
    rw [h2, h3, h4, h5, DirStats.spread, he, mean_of_zero hn]
    exact ⟨rfl, rfl, rfl, rfl⟩
  · have hn : 0 < d.n := by
      refine Nat.pos_of_ne_zero fun h => ?_
      rw [(ok.none_yet h).2] at hx
      cases hx
    rw [h2, h3, h4, h5, DirStats.spread, hx, mean_of_pos hn]
    exact ⟨rfl, rfl, rfl, rfl⟩

/-! ### The medium record (R207) -/

/-- Six W values. -/
def wFields (w : Axes Int) : List (Nat × Int) := w.toList.map fun v => (4, v)

/-- The fields of a medium record (R207). -/
def mediumFields (c : Cu) : List (Nat × Int) :=
  ([(2, c.activeGeneration), (1, (boolBit c.pendingSet.isSome 0 + boolBit c.stale 1 : Nat)),
    (2, ((c.pendingSet.map MediumSet.generation).getD 0 : Nat)), (1, c.debt), (1, c.age)] : List (Nat × Int)) ++
  wFields c.activeW ++ wFields ((c.pendingSet.map MediumSet.w).getD (.all 0))

theorem mediumRecord_eq_layout (c : Cu) : c.mediumRecord = layout (mediumFields c) := by
  simp [Cu.mediumRecord, natField, mediumFields, wBytes, wFields, layout, Axes.toList]

theorem mediumFlags_eq (c : Cu) :
    boolBit c.pendingSet.isSome 0 + boolBit c.stale 1 = Fields.bitSum [c.pendingSet.isSome, c.stale] := by
  simp only [Fields.boolBit_eq, Fields.bitSum_cons, Fields.bitSum_nil]
  omega

/-! ### The status record (R208) -/

/-- The fields of a point block (R208). -/
def blockFieldsOf (m : MeasuringPoint) (g : Nat) : List (Nat × Int) :=
  [(1, m.state.code), (1, m.cause.code), (1, directionCode m.direction), (1, m.cursor.code), (1, m.statusFlags g),
    (1, m.queue.length), (6, m.x), (4, m.vx), (2, ((m.cursor.designation.map Designation.slot).getD 0 : Nat)),
    (2, ((m.cursor.designation.map Designation.key).getD 0 : Nat)),
    (2, ((m.cursor.designation.map Designation.revision).getD 0 : Nat)), (1, directionCode m.cursor.armingDirection),
    (1, ((m.cursor.pass.map OpenPass.tally).getD 0 : Nat)), (2, m.scan.first), (2, m.scan.last), (1, m.scan.stride),
    (2, m.counters.stray), (2, m.counters.glitch), (2, m.counters.heldStrobe), (2, m.counters.overrunLost),
    (2, m.counters.orphaned)]

theorem statusBlock_eq_layout (m : MeasuringPoint) (g : Nat) : m.statusBlock g = layout (blockFieldsOf m g) := by
  simp [MeasuringPoint.statusBlock, Counters.bytes, natField, blockFieldsOf, layout]

theorem statusBlock_length (m : MeasuringPoint) (g : Nat) : (m.statusBlock g).length = 39 := by
  rw [statusBlock_eq_layout]
  simp [layout_length, blockFieldsOf]

theorem mediumRecord_length (c : Cu) : c.mediumRecord.length = 55 := by
  rw [mediumRecord_eq_layout]
  simp [layout_length, mediumFields, wFields, Axes.toList]

theorem statusFlags_eq (m : MeasuringPoint) (g : Nat) :
    m.statusFlags g = Fields.bitSum
      [m.passOpen, m.quiet, m.guardClear g, m.cursor.trigger.isSome, m.cursor.trigger.any TriggerPoint.fired,
        m.passOpen && m.tracker.inProgress, m.cursor.pass.any OpenPass.split] := by
  simp only [MeasuringPoint.statusFlags, Fields.boolBit_eq, Fields.bitSum_cons, Fields.bitSum_nil]
  omega

/-- The fields of the rest of a status record (R171, R208). -/
def schedulingFields (c : Cu) : List (Nat × Int) :=
  [(2, c.timerCount), (2, c.timerPeriod), (1, (boolBit c.timerEnable 0 + boolBit c.commitHold 1 : Nat)), (1, c.hpMark),
    (1, c.panicMark), (1, c.staleLimit), (4, c.guard), (1, c.lastCommit.code)]

theorem schedulingFlags_eq (c : Cu) :
    boolBit c.timerEnable 0 + boolBit c.commitHold 1 = Fields.bitSum [c.timerEnable, c.commitHold] := by
  simp only [Fields.boolBit_eq, Fields.bitSum_cons, Fields.bitSum_nil]
  omega

/-- The fields of the record behind the two point blocks: the occupancy, the medium record, the scheduling part and the counts. -/
def restFields (s : State) : List (Nat × Int) :=
  ([(2, s.table.liveCount .mp0), (2, s.table.liveCount .mp1), (2, s.table.freeCount)] : List (Nat × Int)) ++
  mediumFields s.cu ++ schedulingFields s.cu ++
  ([(2, s.req.discardedCount), (2, s.req.malformedCount)] : List (Nat × Int))

theorem statusRecord_eq (s : State) :
    s.statusRecord =
      (s.point .mp0).statusBlock s.cu.guard ++ (s.point .mp1).statusBlock s.cu.guard ++
        layout (restFields s) := by
  have happ : ∀ a b, layout (a ++ b) = layout a ++ layout b := fun a b => by
    induction a with
    | nil => rfl
    | cons f a ih => rw [List.cons_append, layout_cons, layout_cons, ih, List.append_assoc]
  rw [restFields, happ, happ, happ, ← mediumRecord_eq_layout]
  simp [State.statusRecord, LineTable.occupancyBytes, Cu.schedulingBytes, natField, schedulingFields, layout]

end Sys2Proof.Proofs.Records

/-! The layouts of the records, assembled (R204 to R208). -/

namespace Sys2Proof.Proofs.Records

open Sys2Proof.Machine

/-! ### What the cursor shows (R201, R208) -/

theorem trigger_isSome_iff (c : Cursor) : c.trigger.isSome = true ↔ ∃ d dir tp, c = .armed d dir (some tp) := by
  rcases c with _ | _ | ⟨d, dir, _ | tp⟩ | ⟨d, dir, r⟩ <;> simp [Cursor.trigger]

theorem trigger_fired_iff (c : Cursor) :
    c.trigger.any TriggerPoint.fired = true ↔ ∃ d dir tp, c = .armed d dir (some tp) ∧ tp.fired = true := by
  rcases c with _ | _ | ⟨d, dir, _ | tp⟩ | ⟨d, dir, r⟩ <;> simp [Cursor.trigger]

theorem pass_split_iff (c : Cursor) :
    c.pass.any OpenPass.split = true ↔ ∃ d dir r, c = .opened d dir r ∧ r.split = true := by
  rcases c with _ | _ | ⟨d, dir, t⟩ | ⟨d, dir, r⟩ <;> simp [Cursor.pass]

/-- The byte of a direction (R201). -/
theorem directionCode_eq (d : Option Travel) :
    BitVec.ofNat 8 (directionCode d) =
      (match d with | none => 0 | some .forward => 1 | some .reverse => 2 : Byte) := by
  rcases d with _ | _ | _ <;> rfl

/-- The length that an outcome carries (R75). -/
def outcomeLength : Outcome → Int
  | .matched v => v
  | _ => 0

theorem lastPass_codes {r : Results} {o : Outcome} {dir : Travel}
    (h : r.lastPass = some { outcome := o, direction := dir }) :
    r.lastOutcomeCode = o.code ∧ r.lastDirectionCode = travelCode dir ∧ r.lastDeviation.getD 0 = outcomeLength o := by
  rw [Results.lastOutcomeCode, Results.lastDirectionCode, Results.lastDeviation, h]
  refine ⟨rfl, rfl, ?_⟩
  cases o <;> rfl

theorem lastPass_none_codes {r : Results} (h : r.lastPass = none) :
    r.lastOutcomeCode = 0 ∧ r.lastDirectionCode = 0 ∧ r.lastDeviation.getD 0 = 0 := by
  rw [Results.lastOutcomeCode, Results.lastDirectionCode, Results.lastDeviation, h]
  exact ⟨rfl, rfl, rfl⟩

/-- Where each W of a medium record stands (R207). -/
theorem mediumFields_w (c : Cu) (a : Axis) :
    (mediumFields c)[5 + a.val]? = some (4, c.activeW.get a) ∧ offset 0 (mediumFields c) (5 + a.val) = 7 + 4 * a.val ∧
      (mediumFields c)[11 + a.val]? = some (4, ((c.pendingSet.map MediumSet.w).getD (.all 0)).get a) ∧
      offset 0 (mediumFields c) (11 + a.val) = 31 + 4 * a.val := by
  fin_cases a <;> exact ⟨rfl, rfl, rfl, rfl⟩

/-- A point's block of the status record (R208). -/
theorem statusRecord_block (s : State) (p : Point) :
    (s.statusRecord.drop (match p with | .mp0 => 0 | .mp1 => 39)).take 39 = (s.point p).statusBlock s.cu.guard := by
  rw [statusRecord_eq]
  cases p with
  | mp0 =>
    have h := take_drop_middle (a := []) (b := (s.point .mp0).statusBlock s.cu.guard)
      (c := (s.point .mp1).statusBlock s.cu.guard ++ layout (restFields s)) rfl (statusBlock_length _ _)
    rw [List.nil_append, ← List.append_assoc] at h
    exact h
  | mp1 => exact take_drop_middle (statusBlock_length _ _) (statusBlock_length _ _)

/-- A field of the status record behind the point blocks. -/
theorem statusRecord_field {s : State} {w n off : Nat} {v : Nat} (i : Nat)
    (hi : (restFields s)[i]? = some (n, (v : Int))) (ho : offset 78 (restFields s) i = off) (hw : w = 8 * n) :
    fieldAt w n s.statusRecord off = BitVec.ofNat w v := by
  have hlen : ((s.point .mp0).statusBlock s.cu.guard ++ (s.point .mp1).statusBlock s.cu.guard).length = 78 := by
    rw [List.length_append, statusBlock_length, statusBlock_length]
  rw [offset_eq_add] at ho
  rw [statusRecord_eq, Fields.fieldAt_append (by omega), hlen]
  exact fieldAt_of_layout_nat i rfl hi (by omega) hw

/-- The medium record within the status record (R208). -/
theorem statusRecord_medium (s : State) : (s.statusRecord.drop 84).take 55 = s.cu.mediumRecord := by
  have hsplit : s.statusRecord =
      ((s.point .mp0).statusBlock s.cu.guard ++ (s.point .mp1).statusBlock s.cu.guard ++ s.table.occupancyBytes) ++
        s.cu.mediumRecord ++
        (s.cu.schedulingBytes ++ natField 2 s.req.discardedCount ++ natField 2 s.req.malformedCount) := by
    simp [State.statusRecord]
  rw [hsplit]
  refine take_drop_middle ?_ (mediumRecord_length _)
  simp [statusBlock_length, LineTable.occupancyBytes, natField]

theorem statusRecord_length (s : State) : s.statusRecord.length = 156 := by
  rw [statusRecord_eq, List.length_append, List.length_append, statusBlock_length, statusBlock_length]
  simp [layout_length, restFields, mediumFields, wFields, Axes.toList, schedulingFields]

/-- Settles O40: each record is a layout, read field by field. -/
theorem recordsAreLaidOut : Obligations.RecordsAreLaidOut := by
  refine ⟨?_, fun s => ⟨?_, axesReading_part s⟩, ?_, ?_, ?_, ?_⟩
  · intro c refok hh hd bs
    have h := reading_eq_layout c refok
    have h0 : u8 bs 0 = BitVec.ofNat 8 c.state.code := fieldAt_of_layout_nat 0 h rfl rfl rfl
    have h1 : u8 bs 1 = BitVec.ofNat 8 c.lostCause.code := fieldAt_of_layout_nat 1 h rfl rfl rfl
    have h2 : u8 bs 2 = BitVec.ofNat 8 c.hold := fieldAt_of_layout_nat 2 h rfl rfl rfl
    have h3 : u8 bs 3 = BitVec.ofNat 8 c.dropouts := fieldAt_of_layout_nat 3 h rfl rfl rfl
    have h4 : u8 bs 4 = BitVec.ofNat 8 (Fields.bitSum [c.sigok, refok, c.seeded]) :=
      (fieldAt_of_layout_nat 4 h rfl rfl rfl).trans (by rw [levels_eq])
    refine ⟨reading_length c refok, ?_, ?_, ?_, ?_, flag_of h4 (by decide), flag_of h4 (by decide), flag_of h4 (by decide),
      flags_lt h4, fieldAt_of_layout 5 h rfl rfl rfl, fieldAt_of_layout 6 h rfl rfl rfl, fieldAt_of_layout 7 h rfl rfl rfl,
      fieldAt_of_layout 8 h rfl rfl rfl⟩
    · rw [h0]
      cases c.state <;> rfl
    · rw [h1]
      cases c.lostCause <;> rfl
    · rw [h2, BitVec.toNat_ofNat, Nat.mod_eq_of_lt (by omega)]
    · rw [h3, BitVec.toNat_ofNat, Nat.mod_eq_of_lt (by omega)]
  · rw [AxisRequests.axesReading_eq]
    simp [reading_length]
  · intro slot revision state e ok bs res block
    have h := entryRecord_eq_layout slot revision e state
    have h2 : u8 bs 4 = BitVec.ofNat 8 (pointCode e.point) := fieldAt_of_layout_nat 2 h rfl rfl rfl
    have h6 : u8 bs 17 = BitVec.ofNat 8 (Fields.bitSum [e.hold, e.trigger, res.staleSeen, res.saturated]) :=
      (fieldAt_of_layout_nat 6 h rfl rfl rfl).trans (by rw [entryFlags_eq])
    have h8 : u8 bs 19 = BitVec.ofNat 8 (Fields.bitSum
        [decide (0 < res.forward.n), decide (0 < res.reverse.n), res.reversal.isSome, res.lastDeviation.isSome]) :=
      (fieldAt_of_layout_nat 8 h rfl rfl rfl).trans (by rw [presence_eq])
    have h9 : u8 bs 20 = BitVec.ofNat 8 res.lastOutcomeCode := fieldAt_of_layout_nat 9 h rfl rfl rfl
    have h10 : u8 bs 21 = BitVec.ofNat 8 res.lastDirectionCode := fieldAt_of_layout_nat 10 h rfl rfl rfl
    have h11 : u32 bs 22 = BitVec.ofInt 32 (res.lastDeviation.getD 0) := fieldAt_of_layout 11 h rfl rfl rfl
    have h27 : u48 bs 82 = BitVec.ofInt 48 (res.reversal.getD 0) := fieldAt_of_layout 27 h rfl rfl rfl
    refine ⟨by rw [show bs = _ from h]; simp [layout_length, entryFields, blockFields],
      fieldAt_of_layout_nat 0 h rfl rfl rfl, fieldAt_of_layout_nat 1 h rfl rfl rfl, ?_,
      fieldAt_of_layout_nat 3 h rfl rfl rfl, fieldAt_of_layout 4 h rfl rfl rfl, fieldAt_of_layout_nat 5 h rfl rfl rfl,
      flag_of h6 (by decide), flag_of h6 (by decide), flag_of h6 (by decide), flag_of h6 (by decide), flags_lt h6,
      fieldAt_of_layout_nat 7 h rfl rfl rfl, ?_, ?_, ?_, ?_, flags_lt h8, fun hl => ?_, fun o dir hl => ?_,
      fieldAt_of_layout_nat 12 h rfl rfl rfl, fieldAt_of_layout_nat 13 h rfl rfl rfl,
      fieldAt_of_layout_nat 14 h rfl rfl rfl, ?_, ?_, ?_, fieldAt_of_layout 28 h rfl rfl rfl,
      fieldAt_of_layout 29 h rfl rfl rfl⟩
    · rw [h2]
      cases e.point <;> rfl
    · rw [flag_of h8 (by decide)]
      exact decide_eq_true_iff
    · rw [flag_of h8 (by decide)]
      exact decide_eq_true_iff
    · rw [flag_of h8 (by decide)]
      exact reversal_isSome_iff res
    · rw [flag_of h8 (by decide)]
      exact lastDeviation_isSome_iff res
    · obtain ⟨e1, e2, e3⟩ := lastPass_none_codes hl
      rw [h9, h10, h11, e1, e2, e3]
      exact ⟨rfl, rfl, rfl⟩
    · obtain ⟨e1, e2, e3⟩ := lastPass_codes hl
      rw [h9, h10, h11, e1, e2, e3]
      refine ⟨?_, ?_, ?_⟩
      · cases o <;> rfl
      · cases dir <;> rfl
      · cases o <;> rfl
    · exact block_of_fields ok.forward (fieldAt_of_layout_nat 15 h rfl rfl rfl) (fieldAt_of_layout 16 h rfl rfl rfl)
        (fieldAt_of_layout 17 h rfl rfl rfl) (fieldAt_of_layout 18 h rfl rfl rfl) (fieldAt_of_layout 19 h rfl rfl rfl)
        (fieldAt_of_layout 20 h rfl rfl rfl)
    · exact block_of_fields ok.reverse (fieldAt_of_layout_nat 21 h rfl rfl rfl) (fieldAt_of_layout 22 h rfl rfl rfl)
        (fieldAt_of_layout 23 h rfl rfl rfl) (fieldAt_of_layout 24 h rfl rfl rfl) (fieldAt_of_layout 25 h rfl rfl rfl)
        (fieldAt_of_layout 26 h rfl rfl rfl)
    · rw [h27, reversal_eq]
      split_ifs <;> rfl
  · intro c bs
    have h := mediumRecord_eq_layout c
    have h1 : u8 bs 2 = BitVec.ofNat 8 (Fields.bitSum [c.pendingSet.isSome, c.stale]) :=
      (fieldAt_of_layout_nat 1 h rfl rfl rfl).trans (by rw [mediumFlags_eq])
    have h2 : u16 bs 3 = BitVec.ofNat 16 ((c.pendingSet.map MediumSet.generation).getD 0) :=
      fieldAt_of_layout_nat 2 h rfl rfl rfl
    have hw : ∀ a : Axis, u32 bs (31 + 4 * a.val) = BitVec.ofInt 32 (((c.pendingSet.map MediumSet.w).getD (.all 0)).get a) :=
      fun a => fieldAt_of_layout _ h (mediumFields_w c a).2.2.1 (mediumFields_w c a).2.2.2 rfl
    refine ⟨mediumRecord_length c, fieldAt_of_layout_nat 0 h rfl rfl rfl, flag_of h1 (by decide), flag_of h1 (by decide),
      flags_lt h1, fieldAt_of_layout_nat 3 h rfl rfl rfl, fieldAt_of_layout_nat 4 h rfl rfl rfl,
      fun a => fieldAt_of_layout _ h (mediumFields_w c a).1 (mediumFields_w c a).2.1 rfl, fun hn => ?_, fun ps hp => ?_⟩
    · rw [hn] at h2 hw
      exact ⟨h2, fun a => (hw a).trans (by rw [Option.map_none, Option.getD_none, Axes.get_all]; rfl)⟩
    · rw [hp] at h2 hw
      exact ⟨h2, hw⟩
  · intro s p m bs direction
    have h : bs = layout (blockFieldsOf m s.cu.guard) := (statusRecord_block s p).trans (statusBlock_eq_layout _ _)
    have h0 : u8 bs 0 = BitVec.ofNat 8 m.state.code := fieldAt_of_layout_nat 0 h rfl rfl rfl
    have h1 : u8 bs 1 = BitVec.ofNat 8 m.cause.code := fieldAt_of_layout_nat 1 h rfl rfl rfl
    have h2 : u8 bs 2 = BitVec.ofNat 8 (directionCode m.direction) := fieldAt_of_layout_nat 2 h rfl rfl rfl
    have h3 : u8 bs 3 = BitVec.ofNat 8 m.cursor.code := fieldAt_of_layout_nat 3 h rfl rfl rfl
    have h4 : u8 bs 4 = BitVec.ofNat 8 (Fields.bitSum
        [m.passOpen, m.quiet, m.guardClear s.cu.guard, m.cursor.trigger.isSome, m.cursor.trigger.any TriggerPoint.fired,
          m.passOpen && m.tracker.inProgress, m.cursor.pass.any OpenPass.split]) :=
      (fieldAt_of_layout_nat 4 h rfl rfl rfl).trans (by rw [statusFlags_eq])
    have h8 : u16 bs 16 = BitVec.ofNat 16 ((m.cursor.designation.map Designation.slot).getD 0) :=
      fieldAt_of_layout_nat 8 h rfl rfl rfl
    have h9 : u16 bs 18 = BitVec.ofNat 16 ((m.cursor.designation.map Designation.key).getD 0) :=
      fieldAt_of_layout_nat 9 h rfl rfl rfl
    have h10 : u16 bs 20 = BitVec.ofNat 16 ((m.cursor.designation.map Designation.revision).getD 0) :=
      fieldAt_of_layout_nat 10 h rfl rfl rfl
    have h11 : u8 bs 22 = BitVec.ofNat 8 (directionCode m.cursor.armingDirection) := fieldAt_of_layout_nat 11 h rfl rfl rfl
    have h12 : u8 bs 23 = BitVec.ofNat 8 ((m.cursor.pass.map OpenPass.tally).getD 0) :=
      fieldAt_of_layout_nat 12 h rfl rfl rfl
    refine ⟨?_, ?_, h2.trans (directionCode_eq _), flag_of h4 (by decide), flag_of h4 (by decide), flag_of h4 (by decide),
      ?_, ?_, ?_, ?_, flags_lt h4, fieldAt_of_layout_nat 5 h rfl rfl rfl, fieldAt_of_layout 6 h rfl rfl rfl,
      fieldAt_of_layout 7 h rfl rfl rfl, fun hc => ?_, fun hc => ?_, fun hc => ?_, fun d dir tr hc => ?_,
      fun d dir r hc => ?_, fieldAt_of_layout_nat 13 h rfl rfl rfl, fieldAt_of_layout_nat 14 h rfl rfl rfl,
      fieldAt_of_layout_nat 15 h rfl rfl rfl, fieldAt_of_layout_nat 16 h rfl rfl rfl,
      fieldAt_of_layout_nat 17 h rfl rfl rfl, fieldAt_of_layout_nat 18 h rfl rfl rfl,
      fieldAt_of_layout_nat 19 h rfl rfl rfl, fieldAt_of_layout_nat 20 h rfl rfl rfl⟩
    · rw [h0]
      cases m.state <;> rfl
    · rw [h1]
      cases m.cause <;> rfl
    · rw [flag_of h4 (by decide)]
      exact trigger_isSome_iff _
    · rw [flag_of h4 (by decide)]
      exact trigger_fired_iff _
    · rw [flag_of h4 (by decide)]
      exact Bool.and_eq_true_iff
    · rw [flag_of h4 (by decide)]
      exact pass_split_iff _
    · rw [h3, hc]
      rfl
    · rw [h3, hc]
      rfl
    · rw [h8, h9, h10, h11, h12]
      rcases hc with hc | hc <;> rw [hc] <;> exact ⟨rfl, rfl, rfl, rfl, rfl⟩
    · rw [h3, h8, h9, h10, h11, h12, hc]
      exact ⟨rfl, rfl, rfl, rfl, directionCode_eq _, rfl⟩
    · rw [h3, h8, h9, h10, h11, h12, hc]
      exact ⟨rfl, rfl, rfl, rfl, rfl, rfl⟩
  · intro s bs
    have h64 : u8 bs 143 = BitVec.ofNat 8 (Fields.bitSum [s.cu.timerEnable, s.cu.commitHold]) :=
      (statusRecord_field (s := s) 22 rfl rfl rfl).trans (by rw [schedulingFlags_eq])
    have h69 : u8 bs 151 = BitVec.ofNat 8 s.cu.lastCommit.code := statusRecord_field (s := s) 27 rfl rfl rfl
    refine ⟨statusRecord_length s, statusRecord_field 0 rfl rfl rfl, statusRecord_field 1 rfl rfl rfl,
      statusRecord_field 2 rfl rfl rfl, statusRecord_medium s, statusRecord_field 20 rfl rfl rfl,
      statusRecord_field 21 rfl rfl rfl, flag_of h64 (by decide), flag_of h64 (by decide), flags_lt h64,
      statusRecord_field 23 rfl rfl rfl, statusRecord_field 24 rfl rfl rfl, statusRecord_field 25 rfl rfl rfl,
      statusRecord_field 26 rfl rfl rfl, ?_, statusRecord_field 28 rfl rfl rfl, statusRecord_field 29 rfl rfl rfl⟩
    rw [h69]
    cases s.cu.lastCommit <;> rfl

end Sys2Proof.Proofs.Records

/-! The pass evaluator: the derived values of a record that is read, what an applied record does to the results, and the access of
the evaluator (R76, R130 to R141). -/

namespace Sys2Proof.Proofs.Evaluator

open Sys2Proof.Machine

/-! ### The derived values (R76) -/

/-- A rounded quotient lies between the integers that the quotient lies between. -/
theorem roundDiv_mem {n d lo hi : Int} (hd : 0 < d) (hlo : d * lo ≤ n) (hhi : n ≤ d * hi) :
    lo ≤ roundDiv n d ∧ roundDiv n d ≤ hi := by
  obtain ⟨upper, lower⟩ := roundDiv_bounds n d hd
  constructor
  · by_contra hlt
    have hstep := mul_le_mul_of_nonneg_left (show roundDiv n d ≤ lo - 1 by omega) hd.le
    rw [mul_sub, mul_one] at hstep
    omega
  · by_contra hlt
    have hstep := mul_le_mul_of_nonneg_left (show hi + 1 ≤ roundDiv n d by omega) hd.le
    rw [mul_add, mul_one] at hstep
    omega

/-- The mean lies between the extremes. -/
theorem mean_range {d : DirStats} (ok : StatsOk d) (hn : 0 < d.n) :
    -2147483648 ≤ roundDiv d.sum d.n ∧ roundDiv d.sum d.n ≤ 2147483647 := by
  obtain ⟨e, -, hmin, -, hmax, hlo, hhi⟩ := ok.some_yet hn
  have hm := roundDiv_mem (Int.natCast_pos.2 hn) hlo hhi
  omega

theorem mean_range_of_some {d : DirStats} (ok : StatsOk d) {v : Int} (h : d.mean = some v) :
    0 < d.n ∧ v = roundDiv d.sum d.n ∧ -2147483648 ≤ v ∧ v ≤ 2147483647 := by
  obtain hz | hn := Nat.eq_zero_or_pos d.n
  · rw [Records.mean_of_zero hz] at h
    cases h
  · rw [Records.mean_of_pos hn] at h
    cases h
    exact ⟨hn, rfl, mean_range ok hn⟩

theorem mean_eq_none_iff (d : DirStats) : d.mean = none ↔ d.n = 0 := by
  obtain hz | hn := Nat.eq_zero_or_pos d.n
  · simp [Records.mean_of_zero hz, hz]
  · simp [Records.mean_of_pos hn, hn.ne']

/-- Settles O60: the mean lies between the extremes, and so does the difference of two means. -/
theorem derivedValuesAreMeanSpreadAndReversal : Obligations.DerivedValuesAreMeanSpreadAndReversal := by
  refine ⟨fun d ok => ⟨fun hz => ⟨Records.mean_of_zero hz, ?_⟩, fun hn => ⟨Records.mean_of_pos hn, ?_⟩⟩,
    fun r ok => ⟨fun f v hf hv => ?_, fun h => ?_⟩⟩
  · rw [DirStats.spread, (ok.none_yet hz).2]
    rfl
  · obtain ⟨e, he, hmin, hle, hmax, -, -⟩ := ok.some_yet hn
    refine ⟨e, he, by rw [DirStats.spread, he]; rfl, by omega, by omega, mean_range ok hn⟩
  · obtain ⟨hnf, rfl, hf⟩ := mean_range_of_some ok.forward hf
    obtain ⟨hnr, rfl, hr⟩ := mean_range_of_some ok.reverse hv
    rw [Records.reversal_eq, if_pos ⟨hnf, hnr⟩]
    exact ⟨rfl, abs_le.2 ⟨by omega, by omega⟩⟩
  · rw [Records.reversal_eq, if_neg]
    rw [mean_eq_none_iff, mean_eq_none_iff] at h
    omega

/-! ### An applied record (R135 to R140) -/

section
variable (r : Results) (dir t : Travel) (d : DirStats)

theorem stats_setStats_same : (r.setStats dir d).stats dir = d := by cases dir <;> rfl

theorem stats_setStats_of_ne (h : t ≠ dir) : (r.setStats dir d).stats t = r.stats t := by
  cases dir <;> cases t
  case forward.forward => exact absurd rfl h
  case reverse.reverse => exact absurd rfl h
  all_goals rfl

/-- A matched record reaches the statistics of its own direction. -/
theorem stats_applyMatched (dev : Int) (stale : Bool) :
    (r.applyMatched dir dev stale).stats t = (r.setStats dir ((r.stats dir).accumulate dev)).stats t := by
  cases t <;> rfl

theorem stats_setLast (o : Outcome) : (r.setLast o dir).stats t = r.stats t := by cases t <;> rfl

end

theorem accumulate_of_full {d : DirStats} (h : 65535 ≤ d.n) (dev : Int) : d.accumulate dev = d := if_neg (by omega)

theorem accumulate_of_room {d : DirStats} (h : d.n < 65535) (dev : Int) :
    (d.accumulate dev).n = d.n + 1 ∧ (d.accumulate dev).sum = d.sum + dev ∧
      (d.extremes = none → (d.accumulate dev).extremes = some { min := dev, max := dev }) ∧
      ∀ e, d.extremes = some e → (d.accumulate dev).extremes = some { min := min e.min dev, max := max e.max dev } := by
  unfold DirStats.accumulate
  rw [if_pos h]
  refine ⟨rfl, rfl, fun he => by rw [he], fun e he => ?_⟩
  rw [he]
  refine congrArg some (Extremes.mk.injEq .. ▸ ⟨?_, ?_⟩)
  · split <;> omega
  · split <;> omega

theorem applyPass_of_matched {r : PassRecord} {x : Int} (h : r.outcome = .matched x) (res : Results) (nominal : Int) :
    res.applyPass nominal r =
      (res.applyMatched r.direction (deviation x nominal) r.stale).setLast (.matched (deviation x nominal)) r.direction := by
  unfold Results.applyPass
  rw [h]

theorem applyPass_of_not_matched {r : PassRecord} (h : ∀ x, r.outcome ≠ .matched x) (res : Results) (nominal : Int) :
    res.applyPass nominal r =
      (if r.outcome.isMiss then res.countMiss else res.countReject).setLast r.outcome r.direction := by
  unfold Results.applyPass
  cases ho : r.outcome
  case matched x => exact absurd ho (h x)
  all_goals rfl

theorem isMiss_iff (o : Outcome) : o.isMiss = true ↔ o = .missed ∨ o = .jumped := by cases o <;> simp [Outcome.isMiss]

theorem countMiss_setLast (res : Results) (o : Outcome) (dir : Travel) :
    res.countMiss.setLast o dir =
      { res with
        missCount := min 255 (res.missCount + 1), passTotal := min 65535 (res.passTotal + 1)
        lastPass := some { outcome := o, direction := dir } } := by
  rw [← bump8_eq_min, ← bump16_eq_min]
  rfl

theorem countReject_setLast (res : Results) (o : Outcome) (dir : Travel) :
    res.countReject.setLast o dir =
      { res with
        rejectCount := min 255 (res.rejectCount + 1), passTotal := min 65535 (res.passTotal + 1)
        lastPass := some { outcome := o, direction := dir } } := by
  rw [← bump8_eq_min, ← bump16_eq_min]
  rfl

/-- Settles O59: a MATCHED record by the room left in its direction, any other by whether it is a miss. -/
theorem appliedRecordsReachTheResults : Obligations.AppliedRecordsReachTheResults := by
  refine ⟨fun res nominal x r h => ?_, fun res nominal r h => ⟨fun hm => ?_, fun h1 h2 => ?_⟩⟩
  · rw [← clampInt_eq (show (-2147483648 : Int) ≤ 2147483647 by decide)]
    intro dev d res'
    have hres : res' = (res.applyMatched r.direction dev r.stale).setLast (.matched dev) r.direction :=
      applyPass_of_matched h res nominal
    have hsat : res'.saturated = (res.saturated || decide (65535 ≤ d.n)) := by
      rw [hres]
      cases hd : r.direction <;> simp only [d, hd] <;> rfl
    have hstats : ∀ t, res'.stats t = (res.setStats r.direction (d.accumulate dev)).stats t := fun t => by
      rw [hres, stats_setLast, stats_applyMatched]
    have hown : res'.stats r.direction = d.accumulate dev := (hstats _).trans (stats_setStats_same _ _ _)
    refine ⟨by rw [hres]; rfl, ?_, ?_, ?_, ?_, fun t ht => (hstats t).trans (stats_setStats_of_ne _ _ _ _ ht),
      fun hf => ?_, fun hn => ?_⟩
    · rw [hres, ← bump16_eq_min]
      cases r.direction <;> rfl
    · rw [hres]
      cases r.direction <;> rfl
    · rw [hres]
      cases r.direction <;> rfl
    · rw [hres]
      cases r.direction <;> rfl
    · rw [hown, accumulate_of_full hf, hsat]
      simp [hf]
    · rw [hown, hsat]
      refine ⟨by simp [hn], accumulate_of_room hn dev⟩
  · rw [applyPass_of_not_matched h, if_pos ((isMiss_iff _).2 hm), countMiss_setLast]
  · rw [applyPass_of_not_matched h, if_neg fun hm => ((isMiss_iff _).1 hm).elim h1 h2, countReject_setLast]

/-! ### The evaluator's access (R130 to R135, R139, R141) -/

/-- The queue named by the pointer, or the other when that is empty (R132). -/
theorem chosenQueue_eq {s : State} {p : Point} (hp : p = s.pointer ∨ (p = s.pointer.other ∧ (s.point s.pointer).queue = []))
    (hq : (s.point p).queue ≠ []) : s.chosenQueue = p := by
  unfold State.chosenQueue
  rcases hp with rfl | ⟨rfl, he⟩
  · rw [if_neg (by simpa using hq)]
  · rw [he]
    rfl

theorem countOrphan_eq (m : MeasuringPoint) :
    m.countOrphan = { m with counters := { m.counters with orphaned := min 65535 (m.counters.orphaned + 1) } } := by
  rw [← bump16_eq_min]
  rfl

/-- Settles O58: the frame of an evaluation, then its two cases. -/
theorem evaluatorAppliesOrOrphansTheOldest : Obligations.EvaluatorAppliesOrOrphansTheOldest := by
  intro s p r rest hs hfree hwait hp hq
  have hne : (s.point p).queue ≠ [] := by rw [hq]; exact List.cons_ne_nil _ _
  have hchosen := chosenQueue_eq hp hne
  have hgrant : s.evaluatorGranted = true := by
    refine (Ports.evaluatorGranted_iff s).2 ⟨hfree, ?_, hwait⟩
    cases p
    · exact .inl hne
    · exact .inr hne
  refine ⟨_, Arbiter.exec_evaluatorAccess_of_granted hgrant (by rw [hchosen]; exact hq), by simp, by simp, by simp, by simp,
    by simp, by simp, by simp, by simp, by simp [hchosen], by simp, ?_, Arbiter.grantEvaluator_port s r _ _, fun n hn => ?_,
    fun e he => ?_, fun ho => ?_⟩
  all_goals rw [hchosen]
  · rcases s.evaluate_cases p r with ⟨e, -, h⟩ | ⟨-, h⟩ <;> rw [State.grantEvaluator_point, h]
    · simp
    · rw [State.setPoint_point, if_neg (by cases p <;> decide)]
  · rcases s.evaluate_cases p r with ⟨e, -, h⟩ | ⟨-, h⟩ <;> rw [State.grantEvaluator_table, h]
    · rw [State.applyRecord_table, LineTable.slot_setSlot hs, if_neg hn]
    · rfl
  · have h : s.evaluate p r = s.applyRecord r e := by
      unfold State.evaluate
      rw [(LineTable.recordEntry_eq_some_iff _ _ _).2 he]
    refine ⟨?_, by simp [h], fun k => ?_⟩
    · rw [State.grantEvaluator_table, h, State.applyRecord_table, LineTable.slot_setSlot hs, if_pos rfl]
    · rw [State.grantEvaluator_notices, h, State.applyRecord_flag, Bool.or_eq_true, Bool.and_eq_true, decide_eq_true_eq,
        isMiss_iff, and_comm]
  · have h : s.evaluate p r = s.setPoint p (s.point p).countOrphan := by
      unfold State.evaluate
      rw [(LineTable.recordEntry_eq_none_iff _ _).2 ho]
    refine ⟨by simp [h], by simp [h], ?_⟩
    rw [State.grantEvaluator_point, h, State.setPoint_point, if_pos rfl, countOrphan_eq]

end Sys2Proof.Proofs.Evaluator

/-! What the searches of the table find, the occupancy numbers, and the access of RESTART (R79 to R81, R86, R97, R99, R198). -/

namespace Sys2Proof.Proofs.TableReads

open Sys2Proof.Machine

/-! ### Searches in an index (R79, R80, R91) -/

section
variable {idx : List IndexItem} {it : IndexItem} {k last : Nat}

theorem findKey_isSome_iff (idx : List IndexItem) (k : Nat) : (findKey idx k).isSome = true ↔ ∃ it ∈ idx, it.key = k := by
  simp [findKey]

theorem findKey_eq_none_iff (idx : List IndexItem) (k : Nat) : findKey idx k = none ↔ ∀ it ∈ idx, it.key ≠ k := by
  simp [findKey]

/-- The one item of its key is the item found. -/
theorem findKey_of_mem (h : IndexOrdered idx) (hm : it ∈ idx) (hk : it.key = k) : findKey idx k = some it := by
  cases hf : findKey idx k with
  | none => exact absurd hk (findKey_none hf it hm)
  | some a =>
    obtain ⟨ha, hak⟩ := findKey_some hf
    rw [h.eq_of_key ha hm (hak.trans hk.symm)]

theorem nextItem_eq_none_iff (idx : List IndexItem) (k last : Nat) :
    nextItem idx k last = none ↔ ∀ o ∈ idx, ¬(k ≤ o.key ∧ o.key ≤ last) := by
  simp [nextItem]

theorem nextItem_isSome_iff (idx : List IndexItem) (k last : Nat) :
    (nextItem idx k last).isSome = true ↔ ∃ o ∈ idx, k ≤ o.key ∧ o.key ≤ last := by
  simp [nextItem]

/-- In an ordered index the item found has the least key of the range. -/
theorem nextItem_le_key (h : IndexOrdered idx) {a : IndexItem} (ha : nextItem idx k last = some a) (hm : it ∈ idx)
    (hk : k ≤ it.key ∧ it.key ≤ last) : a.key ≤ it.key := by
  obtain ⟨_, l, r, hl, hall⟩ := List.find?_eq_some_iff_append.1 ha
  rw [hl] at hm h
  obtain hm | hm := List.mem_append.1 hm
  · have hbefore := hall it hm
    rw [Bool.not_eq_true', decide_eq_false_iff_not] at hbefore
    exact absurd hk hbefore
  · obtain rfl | hm := List.mem_cons.1 hm
    · exact le_rfl
    · exact ((List.pairwise_cons.1 (List.pairwise_append.1 h).2.1).1 it hm).1.le

theorem nextItem_of_least (h : IndexOrdered idx) (hm : it ∈ idx) (hk : k ≤ it.key) (hl : it.key ≤ last)
    (least : ∀ o ∈ idx, k ≤ o.key → it.key ≤ o.key) : nextItem idx k last = some it := by
  cases hf : nextItem idx k last with
  | none => exact absurd ⟨hk, hl⟩ ((nextItem_eq_none_iff _ _ _).1 hf it hm)
  | some a =>
    obtain ⟨ha, hka, -⟩ := nextItem_some hf
    rw [h.eq_of_key ha hm (le_antisymm (nextItem_le_key h hf hm ⟨hk, hl⟩) (least a ha hka))]

end

/-! ### The entry of a key, and the lowest FREE slot (R71, R86) -/

section
variable {t : LineTable} {p : Point} {k : Nat}

theorem findEntry_of_mem (h : TableOk t) {it : IndexItem} (hm : it ∈ t.index.get p) (hk : it.key = k) {e : Entry}
    (he : (t.slot it.slot).entry = some e) : t.findEntry p k = some { item := it, entry := e } := by
  unfold LineTable.findEntry
  rw [findKey_of_mem (h.ordered p) hm hk, Option.bind_some, LineTable.entryOf, he]
  rfl

theorem findEntry_eq_none (h : ∀ it ∈ t.index.get p, it.key ≠ k) : t.findEntry p k = none := by
  unfold LineTable.findEntry
  rw [(findKey_eq_none_iff _ _).2 h]
  rfl

theorem lowestFreeFrom_none {slots : List (Nat × Slot)} {fuel n : Nat} (h : lowestFreeFrom slots fuel n = none) :
    ∀ m, n ≤ m → m < n + fuel → (slotGet slots m).entry ≠ none := by
  induction fuel generalizing n with
  | zero => omega
  | succ fuel ih =>
    unfold lowestFreeFrom at h
    split at h
    · cases h
    · next hn =>
      intro m hm hlt
      by_cases hmn : m = n
      · subst hmn
        simpa using hn
      · exact ih h m (by omega) (by omega)

theorem lowestFree_eq_none_iff (t : LineTable) :
    t.lowestFree = none ↔ ∀ n, n < 2048 → (t.slot n).entry ≠ none := by
  constructor
  · intro h n hn
    exact lowestFreeFrom_none h n (Nat.zero_le _) (by rwa [Nat.zero_add])
  · intro h
    cases hf : t.lowestFree with
    | none => rfl
    | some m =>
      obtain ⟨hm, hfree, -⟩ := LineTable.lowestFree_some hf
      exact absurd hfree (h m hm)

theorem lowestFree_of_least {n : Nat} (hn : n < 2048) (hfree : (t.slot n).entry = none)
    (below : ∀ m, m < n → (t.slot m).entry ≠ none) : t.lowestFree = some n := by
  cases hf : t.lowestFree with
  | none => exact absurd hfree ((lowestFree_eq_none_iff t).1 hf n hn)
  | some m =>
    obtain ⟨-, hm, hbelow⟩ := LineTable.lowestFree_some hf
    obtain hlt | rfl | hgt := Nat.lt_trichotomy m n
    · exact absurd hm (below m hlt)
    · rfl
    · exact absurd hfree (hbelow n hgt)

end

/-! ### The occupancy numbers (R80, R97) -/

/-- The listed slots that hold an entry of point `p`. -/
def entrySlots (t : LineTable) (p : Point) : List (Nat × Slot) :=
  t.slots.filter fun e => e.2.entry.any fun n => decide (n.point = p)

theorem mem_entrySlots_iff {t : LineTable} (h : SlotsOk t.slots) (p : Point) (n : Nat) :
    n ∈ (entrySlots t p).map Prod.fst ↔ ∃ e, (t.slot n).entry = some e ∧ e.point = p := by
  simp only [entrySlots, List.mem_map, List.mem_filter, Option.any_eq_true, decide_eq_true_eq]
  constructor
  · rintro ⟨⟨_, v⟩, ⟨hv, e, he, hp⟩, rfl⟩
    refine ⟨e, ?_, hp⟩
    rw [LineTable.slot, slotGet_of_mem h.rising hv]
    exact he
  · rintro ⟨e, he, hp⟩
    exact ⟨_, ⟨mem_of_entry_eq_some he, e, he, hp⟩, rfl⟩

theorem slots_nodup {l : List (Nat × Slot)} (h : SlotsOk l) : (l.map Prod.fst).Nodup :=
  (List.pairwise_map.2 h.rising).imp Nat.ne_of_lt

theorem index_slots_nodup {t : LineTable} (h : TableOk t) (p : Point) : ((t.index.get p).map IndexItem.slot).Nodup := by
  refine List.pairwise_map.2 ((h.ordered p).imp_of_mem fun ha hb hab hs => ?_)
  have hk := (Table.key_eq_iff h hb ha).2 hs
  omega

theorem mem_index_slots_iff {t : LineTable} (h : TableOk t) (p : Point) (n : Nat) :
    n ∈ (t.index.get p).map IndexItem.slot ↔ ∃ e, (t.slot n).entry = some e ∧ e.point = p := by
  rw [List.mem_map]
  constructor
  · rintro ⟨it, hit, rfl⟩
    obtain ⟨e, he, hp, -⟩ := h.listed p it hit
    exact ⟨e, he, hp⟩
  · rintro ⟨e, he, rfl⟩
    exact ⟨_, h.complete n e he, rfl⟩

/-- The index of a point and its live slots list the same slots, each once. -/
theorem liveCount_eq_length {t : LineTable} (h : TableOk t) (p : Point) : t.liveCount p = (t.index.get p).length := by
  have hperm : ((entrySlots t p).map Prod.fst).Perm ((t.index.get p).map IndexItem.slot) := by
    refine (List.perm_ext_iff_of_nodup ?_ (index_slots_nodup h p)).2 fun n => ?_
    · exact (slots_nodup h.slots).sublist (List.Sublist.map _ List.filter_sublist)
    · rw [mem_entrySlots_iff h.slots, mem_index_slots_iff h]
  have hlen := hperm.length_eq
  rw [List.length_map, List.length_map] at hlen
  rw [← hlen, LineTable.liveCount, List.countP_eq_length_filter]
  rfl

/-- Every live entry is of one of the two points. -/
theorem liveCount_add (t : LineTable) :
    t.liveCount .mp0 + t.liveCount .mp1 = t.slots.countP fun e => e.2.entry.isSome := by
  unfold LineTable.liveCount
  induction t.slots with
  | nil => rfl
  | cons e l ih =>
    simp only [List.countP_cons]
    rw [← ih]
    cases he : e.2.entry with
    | none => simp
    | some n => cases hp : n.point <;> simp [hp] <;> omega

theorem slots_length_le {l : List (Nat × Slot)} (h : SlotsOk l) : l.length ≤ 2048 := by
  have hsub : (l.map Prod.fst).Subperm (List.range 2048) :=
    List.subperm_of_subset (slots_nodup h) fun n hn => by
      obtain ⟨e, he, rfl⟩ := List.mem_map.1 hn
      exact List.mem_range.2 (h.number_range e he)
  have hlen := hsub.length_le
  rwa [List.length_map, List.length_range] at hlen

/-- Settles O15: live slots and index items are the same slots, and every live entry is of one of the points. -/
theorem occupancyNumbersSumToAllSlots : Obligations.OccupancyNumbersSumToAllSlots := by
  intro t h
  refine ⟨liveCount_eq_length h, ?_⟩
  have hle : (t.slots.countP fun e => e.2.entry.isSome) ≤ 2048 := List.countP_le_length.trans (slots_length_le h.slots)
  rw [liveCount_add, LineTable.freeCount]
  exact Nat.add_sub_cancel' hle

/-! ### RESTART (R99, R198) -/

/-- A slot after RESTART: FREE with its revision raised when it was LIVE (R99). -/
def restarted (v : Slot) : Slot :=
  if v.entry = none then v else { revision := nextRevision v.revision, entry := none }

theorem restarted_blank : restarted Slot.blank = Slot.blank := rfl

theorem restartSlots_cons (a : Nat × Slot) (l : List (Nat × Slot)) :
    restartSlots (a :: l) =
      if restarted a.2 = Slot.blank then restartSlots l else (a.1, restarted a.2) :: restartSlots l := by
  obtain ⟨n, v⟩ := a
  have hmap : (if v.entry.isSome then (n, { revision := nextRevision v.revision, entry := none }) else (n, v)) =
      (n, restarted v) := by
    unfold restarted
    cases v.entry <;> rfl
  unfold restartSlots
  rw [List.map_cons, List.filter_cons]
  simp only [hmap, decide_eq_true_eq, ne_eq, ite_not]

theorem restartSlots_above {l : List (Nat × Slot)} {n : Nat} (h : ∀ e ∈ l, n < e.1) : ∀ e ∈ restartSlots l, n < e.1 := by
  induction l with
  | nil => exact h
  | cons a l ih =>
    have hl := ih fun e he => h e (List.mem_cons_of_mem _ he)
    rw [restartSlots_cons]
    split
    · exact hl
    · rintro e (_ | ⟨_, he⟩)
      · exact h a List.mem_cons_self
      · exact hl e he

theorem slotGet_restartSlots {l : List (Nat × Slot)} (h : l.Pairwise fun a b => a.1 < b.1) (n : Nat) :
    slotGet (restartSlots l) n = restarted (slotGet l n) := by
  induction l with
  | nil => rfl
  | cons a l ih =>
    obtain ⟨k, v⟩ := a
    obtain ⟨hk, hl⟩ := List.pairwise_cons.1 h
    rw [restartSlots_cons, slotGet_cons]
    by_cases hn : n = k
    · subst hn
      rw [if_pos rfl]
      split
      · next hb => rw [slotGet_of_forall_lt (restartSlots_above hk), hb]
      · rw [slotGet_cons, if_pos rfl]
    · rw [if_neg hn, ← ih hl]
      split
      · rfl
      · rw [slotGet_cons, if_neg hn]

/-- Settles O56: the slots one by one, everything else as `restartAccess` writes it. -/
theorem restartAccessEmptiesTheTable : Obligations.RestartAccessEmptiesTheTable := by
  intro s hs hg
  refine ⟨_, exec_accessCommand hg, fun n => slotGet_restartSlots hs.rising n, fun p => ?_, fun p => ?_, rfl,
    fun k => Kinds.get_all _ _, rfl, rfl, rfl, rfl, rfl, rfl, rfl, rfl, rfl⟩
  · cases p <;> rfl
  · cases p <;> rfl

end Sys2Proof.Proofs.TableReads

/-! What the accesses of the executor do at their grant: LOAD, AMEND, CLEAR, RETIRE, LOOKUP and SWEEP, accepted and refused
(R80 to R95). -/

namespace Sys2Proof.Proofs.Accesses

open Sys2Proof.Machine Sys2Proof.Proofs.TableReads

/-! ### The checks at an access (R77, R81, R83) -/

theorem ordered_iff (idx : List IndexItem) (key : Nat) (lower upper : Int) :
    ordered idx key lower upper = true ↔ PassesOrder idx key lower upper := by
  simp [ordered, PassesOrder, Option.all_eq_true]

theorem inWindow_eq_false_iff (m : MeasuringPoint) (lower upper : Int) :
    m.inWindow lower upper = false ↔ PassesInWindow m lower upper := by
  have hrange : ¬(lower ≤ m.x ∧ m.x ≤ upper) ↔ m.x < lower ∨ upper < m.x := by omega
  unfold MeasuringPoint.inWindow PassesInWindow inside
  rw [Bool.and_eq_false_imp, decide_eq_false_iff_not, hrange]

theorem ordered_eq_false_iff (idx : List IndexItem) (key : Nat) (lower upper : Int) :
    ordered idx key lower upper = false ↔ ¬PassesOrder idx key lower upper := by
  rw [← ordered_iff, Bool.not_eq_true]

theorem inWindow_iff (m : MeasuringPoint) (lower upper : Int) :
    m.inWindow lower upper = true ↔ ¬PassesInWindow m lower upper := by
  rw [← inWindow_eq_false_iff, Bool.not_eq_false]

theorem order_passes {idx : List IndexItem} {key : Nat} {lower upper : Int} (h : PassesOrder idx key lower upper) :
    ¬ordered idx key lower upper = false := fun hf => (ordered_eq_false_iff _ _ _ _).1 hf h

theorem window_passes {m : MeasuringPoint} {lower upper : Int} (h : PassesInWindow m lower upper) :
    ¬m.inWindow lower upper = true := fun hf => (inWindow_iff _ _ _).1 hf h

theorem entryOpen_iff (m : MeasuringPoint) (n : Nat) :
    m.entryOpen n = true ↔ ∃ d dir r, m.cursor = .opened d dir r ∧ d.slot = n := by
  unfold MeasuringPoint.entryOpen MeasuringPoint.entryState
  cases m.cursor with
  | inactive => simp
  | atEnd => simp
  | armed d dir t => by_cases h : d.slot = n <;> simp [h]
  | opened d dir r => by_cases h : d.slot = n <;> simp [h]

theorem entryOpen_eq_false {m : MeasuringPoint} {n : Nat} (h : ∀ d dir r, m.cursor = .opened d dir r → d.slot ≠ n) :
    m.entryOpen n = false := by
  rw [Bool.eq_false_iff, ne_eq, entryOpen_iff]
  rintro ⟨d, dir, r, hc, hs⟩
  exact h d dir r hc hs

/-! ### An edit written and handed on (R80, R84, R130, R141) -/

/-- The part after an access that wrote slot `n` and the index of `p`, and handed the edit to the point. -/
structure EditWritten (s t : State) (p : Point) (n : Nat) (v : Slot) (idx : List IndexItem) (key : Nat)
    (before after : Option IndexItem) (f : AfterAccess) : Prop where
  frame : AccessFrame s t f
  slot : t.table.slot n = v
  slots : ∀ m, m ≠ n → t.table.slot m = s.table.slot m
  index : t.index p = idx
  index_other : t.index p.other = s.index p.other
  point_other : t.point p.other = s.point p.other
  point : t.point p = ((s.point p).handEdit (t.index p) key before after).point
  flags : ∀ k, t.notices.flags.get k =
    (s.notices.flags.get k || decide (k ∈ ((s.point p).handEdit (t.index p) key before after).events))

theorem other_ne (p : Point) : p.other ≠ p := by cases p <;> decide

theorem editWritten_grant {s : State} (hs : SlotsOk s.table.slots) (p : Point) (n : Nat) (v : Slot) (idx : List IndexItem)
    (key : Nat) (before after : Option IndexItem) (f : AfterAccess) :
    EditWritten s (AccessResult.mk ((s.writeTable p n v idx).handEdit p key before after) f).grant p n v idx key before after
      f := by
  have hslot : ∀ m, (AccessResult.mk ((s.writeTable p n v idx).handEdit p key before after) f).grant.table.slot m =
      if m = n then v else s.table.slot m := fun m => by
    rw [AccessResult.grant_table, State.handEdit_table]
    exact LineTable.slot_setSlot hs n v m
  have hindex : ∀ q, (AccessResult.mk ((s.writeTable p n v idx).handEdit p key before after) f).grant.index q =
      if q = p then idx else s.index q := fun q => by
    rw [AccessResult.grant_index, State.handEdit_index, State.writeTable_index]
  refine ⟨⟨?_, ?_, ?_, ?_, ?_, ?_, ?_, rfl, ?_, ?_⟩, ?_, fun m hm => ?_, ?_, ?_, ?_, ?_, fun k => ?_⟩
  · simp
  · simp
  · simp
  · simp [AccessResult.grant]
  · simp
  · simp [AccessResult.grant]
  · simp [AccessResult.grant, State.handEdit]
  · simp [AccessResult.grant]
  · simp [AccessResult.grant]
  · rw [hslot, if_pos rfl]
  · rw [hslot, if_neg hm]
  · rw [hindex, if_pos rfl]
  · rw [hindex, if_neg (other_ne p)]
  · rw [AccessResult.grant_point, State.handEdit_point, if_neg (other_ne p), State.writeTable_point]
  · rw [hindex, if_pos rfl, AccessResult.grant_point, State.handEdit_point, if_pos rfl, State.writeTable_point,
      State.writeTable_index_same]
  · rw [hindex, if_pos rfl]
    refine (State.takePoint_flag _ _ _ k).trans ?_
    rw [State.writeTable_index_same]
    rfl

/-- An access that changes nothing of its own. -/
theorem grant_unchanged (s : State) (f : AfterAccess) : (AccessResult.mk s f).grant = s.accessed f := rfl

theorem grant_refused (s : State) (st : Status) :
    (s.refuseAccess st).grant = s.accessed (.answer { status := st, data := [] }) := rfl

theorem slotAnswer_eq (clamped : Bool) (n rev : Nat) : slotAnswer (acceptedStatus clamped) n rev = editAnswer clamped n rev := by
  cases clamped <;> rfl

/-! ### LOAD ENTRY (R85, R86) -/

section
variable {s : State} {e : Entry} {clamped : Bool}

theorem loadAccess_exists (h : ∃ it ∈ s.index e.point, it.key = e.key) :
    s.loadAccess e clamped = s.refuseAccess .exist := if_pos ((findKey_isSome_iff _ _).2 h)

theorem loadAccess_full (fresh : ∀ it ∈ s.index e.point, it.key ≠ e.key) (h : s.table.lowestFree = none) :
    s.loadAccess e clamped = s.refuseAccess .full := by
  unfold State.loadAccess
  rw [(findKey_eq_none_iff _ _).2 fresh, h]
  rfl

theorem loadAccess_of_free (fresh : ∀ it ∈ s.index e.point, it.key ≠ e.key) {n : Nat} (h : s.table.lowestFree = some n) :
    s.loadAccess e clamped =
      if ordered (s.index e.point) e.key e.lower e.upper = false then s.refuseAccess .order
      else if (s.point e.point).inWindow e.lower e.upper then s.refuseAccess .inWindow
      else
        { state := s.insertEntry n e
          next := slotAnswer (acceptedStatus clamped) n (nextRevision (s.table.slot n).revision) } := by
  unfold State.loadAccess
  rw [(findKey_eq_none_iff _ _).2 fresh, h]
  simp only [Option.isSome_none, Bool.false_eq_true, if_false, Bool.not_eq_true']

end

/-! ### AMEND ENTRY and CLEAR ENTRY (R87 to R89) -/

section
variable {s : State} {p : Point} {key : Nat} {nominal : Int} {halfWidth : Nat} {hold trigger clamped : Bool}

theorem amendAccess_absent (h : ∀ it ∈ s.index p, it.key ≠ key) :
    s.amendAccess p key nominal halfWidth hold trigger clamped = s.refuseAccess .noEntry := by
  unfold State.amendAccess
  rw [findEntry_eq_none h]

theorem amendAccess_of_mem (ok : TableOk s.table) {it : IndexItem} (hm : it ∈ s.index p) (hk : it.key = key) {e : Entry}
    (he : (s.table.slot it.slot).entry = some e) :
    s.amendAccess p key nominal halfWidth hold trigger clamped =
      if (s.point p).entryOpen it.slot then s.refuseAccess .entryOpen
      else if ordered (s.index p) key (nominal - halfWidth) (nominal + halfWidth) = false then s.refuseAccess .order
      else if (s.point p).inWindow (nominal - halfWidth) (nominal + halfWidth) then s.refuseAccess .inWindow
      else
        { state := s.rewriteEntry p it (e.amend nominal halfWidth hold trigger)
          next := slotAnswer (acceptedStatus clamped) it.slot (nextRevision (s.table.slot it.slot).revision) } := by
  unfold State.amendAccess
  rw [findEntry_of_mem ok hm hk he]
  simp only [Bool.not_eq_true']
  rfl

theorem clearAccess_absent (h : ∀ it ∈ s.index p, it.key ≠ key) : s.clearAccess p key = s.refuseAccess .noEntry := by
  unfold State.clearAccess
  rw [findEntry_eq_none h]

theorem clearAccess_of_mem (ok : TableOk s.table) {it : IndexItem} (hm : it ∈ s.index p) (hk : it.key = key) {e : Entry}
    (he : (s.table.slot it.slot).entry = some e) :
    s.clearAccess p key =
      { state := s.writeTable p it.slot
          { revision := nextRevision (s.table.slot it.slot).revision, entry := some { e with results := .load } }
          (replaceItem { it with revision := nextRevision (s.table.slot it.slot).revision } (s.index p))
        next := slotAnswer .ok it.slot (nextRevision (s.table.slot it.slot).revision) } := by
  unfold State.clearAccess
  rw [findEntry_of_mem ok hm hk he]

end

/-! ### RETIRE ENTRIES (R91, R92) -/

section
variable {s : State} {p : Point} {next last retired skipped : Nat}

theorem retireStep_done (h : ∀ o ∈ s.index p, ¬(next ≤ o.key ∧ o.key ≤ last)) :
    s.retireStep p next last retired skipped = { state := s, next := retireAnswer retired skipped } := by
  unfold State.retireStep
  rw [(nextItem_eq_none_iff _ _ _).2 h]

theorem retireStep_of_next {it : IndexItem} (h : nextItem (s.index p) next last = some it) :
    s.retireStep p next last retired skipped =
      if (s.point p).entryOpen it.slot then { state := s, next := s.retireNext p it.key last retired (skipped + 1) }
      else
        { state := s.retireEntry p it, next := (s.retireEntry p it).retireNext p it.key last (retired + 1) skipped } := by
  unfold State.retireStep
  rw [h]

theorem retireNext_of_more {k a b : Nat} (h : ∃ o ∈ s.index p, k < o.key ∧ o.key ≤ last) :
    s.retireNext p k last a b = .ask (.retire p (k + 1) last a b) := if_pos ((nextItem_isSome_iff _ _ _).2 h)

theorem retireNext_of_last {k a b : Nat} (h : ∀ o ∈ s.index p, ¬(k < o.key ∧ o.key ≤ last)) :
    s.retireNext p k last a b = retireAnswer a b :=
  if_neg fun hs => by
    obtain ⟨o, ho, hk⟩ := (nextItem_isSome_iff _ _ _).1 hs
    exact h o ho hk

/-- Above its key the entry retired leaves the index as it was. -/
theorem retireEntry_above (it : IndexItem) :
    (∃ o ∈ (s.retireEntry p it).index p, it.key < o.key ∧ o.key ≤ last) ↔
      ∃ o ∈ s.index p, it.key < o.key ∧ o.key ≤ last := by
  unfold State.retireEntry
  rw [State.handEdit_index, State.writeTable_index_same]
  simp only [mem_removeKey]
  constructor
  · rintro ⟨o, ⟨ho, -⟩, hk⟩
    exact ⟨o, ho, hk⟩
  · rintro ⟨o, ho, hk⟩
    exact ⟨o, ⟨ho, hk.1.ne'⟩, hk⟩

end

/-! ### LOOKUP ENTRY and SWEEP ENTRIES (R94, R95) -/

section
variable {s : State} {p : Point} {next copied : Nat} {records : List Byte}

theorem lookupAccess_absent {key : Nat} (h : ∀ it ∈ s.index p, it.key ≠ key) :
    s.lookupAccess p key = s.refuseAccess .noEntry := by
  unfold State.lookupAccess
  rw [findEntry_eq_none h]

theorem lookupAccess_of_mem (ok : TableOk s.table) {it : IndexItem} (hm : it ∈ s.index p) {e : Entry}
    (he : (s.table.slot it.slot).entry = some e) :
    s.lookupAccess p it.key =
      { state := s, next := .answer { status := .ok, data := s.recordOf p { item := it, entry := e } } } := by
  unfold State.lookupAccess
  rw [findEntry_of_mem ok hm rfl he]

theorem sweepStep_done (h : nextItem (s.index p) next 65535 = none) :
    s.sweepStep p next copied records = { state := s, next := sweepAnswer copied records } := by
  unfold State.sweepStep
  rw [h]

theorem sweepStep_of_next {it : IndexItem} (h : nextItem (s.index p) next 65535 = some it) {e : Entry}
    (he : (s.table.slot it.slot).entry = some e) :
    s.sweepStep p next copied records =
      { state := s
        next :=
          if copied + 1 < 8 ∧ ∃ o ∈ s.index p, it.key < o.key ∧ o.key ≤ 65535 then
            .ask (.sweep p (it.key + 1) (copied + 1) (records ++ s.recordOf p { item := it, entry := e }))
          else sweepAnswer (copied + 1) (records ++ s.recordOf p { item := it, entry := e }) } := by
  have hrec : s.itemRecord p it = s.recordOf p { item := it, entry := e } := by
    unfold State.itemRecord LineTable.entryOf
    rw [he]
    rfl
  unfold State.sweepStep
  rw [h]
  refine congrArg (AccessResult.mk s) ?_
  rw [hrec]
  refine if_congr (and_congr_right fun _ => nextItem_isSome_iff _ _ _) rfl rfl

end

/-! ### The statements -/

/-- Settles O51: the branch of the access that inserts, and what a written edit gives. -/
theorem loadAccessInsertsTheEntry : Obligations.LoadAccessInsertsTheEntry := by
  intro s p key nominal halfWidth hold trigger clamped n ok hg fresh hn hfree below order window rev none_yet e it
  have hlow := lowestFree_of_least hn hfree below
  have hexec := exec_accessCommand hg
  have hrun : s.runJob (.load p key nominal halfWidth hold trigger clamped) =
      { state := s.insertEntry n e, next := slotAnswer (acceptedStatus clamped) n rev } :=
    (loadAccess_of_free (e := e) fresh hlow).trans ((if_neg (order_passes order)).trans (if_neg (window_passes window)))
  rw [hrun, slotAnswer_eq] at hexec
  have w := editWritten_grant ok.slots p n { revision := rev, entry := some e } (insertItem it (s.index p)) key none (some it)
    (editAnswer clamped n rev)
  have hordered : IndexOrdered (insertItem it (s.index p)) :=
    (ok.ordered p).insert fresh (Table.window_apart ok ((ordered_iff _ _ _ _).2 order))
  refine ⟨_, hexec, w.frame, w.slot, w.slots, ?_, fun a => ?_, w.index_other, w.point_other, w.point, w.flags⟩
  · exact w.index.symm ▸ hordered
  · exact (congrArg (a ∈ ·) w.index).to_iff.trans mem_insertItem

/-- Settles O52: the branches that rewrite; a cleared entry is written and not handed on. -/
theorem amendAndClearAccessesRewriteTheEntry : Obligations.AmendAndClearAccessesRewriteTheEntry := by
  refine ⟨?_, ?_⟩
  · intro s p key nominal halfWidth hold trigger clamped it e ok hg hm hk he closed order window rev new
    subst hk
    have hexec := exec_accessCommand hg
    have hrun : s.runJob (.amend p it.key nominal halfWidth hold trigger clamped) =
        { state := s.rewriteEntry p it (e.amend nominal halfWidth hold trigger)
          next := slotAnswer (acceptedStatus clamped) it.slot rev } := by
      refine (amendAccess_of_mem ok hm rfl he).trans ?_
      rw [if_neg (ne_true_of_eq_false (entryOpen_eq_false closed)), if_neg (order_passes order), if_neg (window_passes window)]
      rfl
    rw [hrun, slotAnswer_eq] at hexec
    have w := editWritten_grant ok.slots p it.slot { revision := rev, entry := some (e.amend nominal halfWidth hold trigger) }
      (replaceItem new (s.index p)) it.key (some it) (some new) (editAnswer clamped it.slot rev)
    exact ⟨_, hexec, w.frame, w.slot, w.slots, w.index, w.index_other, w.point_other, w.point, w.flags⟩
  · intro s p key it e ok hg hm hk he rev none_yet
    subst hk
    have hexec := exec_accessCommand hg
    have hrun := clearAccess_of_mem ok hm rfl he
    rw [show s.runJob (.clear p it.key) = _ from hrun] at hexec
    refine ⟨_, hexec, ⟨rfl, rfl, rfl, rfl, rfl, rfl, rfl, rfl, rfl, rfl⟩, ?_, fun m hm' => ?_, ?_, ?_, rfl, rfl⟩
    · exact (LineTable.slot_setSlot ok.slots _ _ _).trans (if_pos rfl)
    · exact (LineTable.slot_setSlot ok.slots _ _ _).trans (if_neg hm')
    · exact State.writeTable_index_same _ _ _ _ _
    · exact (State.writeTable_index _ _ _ _ _ _).trans (if_neg (other_ne p))

/-- Settles O53: nothing left, skipped, or retired; then whether an entry of the range is left. -/
theorem retireStepFreesOrSkips : Obligations.RetireStepFreesOrSkips := by
  intro s p next last retired skipped ok hg counts
  have hexec := exec_accessCommand hg
  refine ⟨fun hnone => ?_, ?_⟩
  · rw [show s.runJob (.retire p next last retired skipped) = _ from retireStep_done hnone] at hexec
    exact hexec
  intro it hm hk hl least follows
  have hnext := nextItem_of_least (ok.ordered p) hm hk hl least
  rw [show s.runJob (.retire p next last retired skipped) = _ from retireStep_of_next hnext] at hexec
  refine ⟨fun hopen => ?_, fun closed => ?_⟩
  · rw [if_pos ((entryOpen_iff _ _).2 hopen)] at hexec
    exact ⟨_, hexec, retireNext_of_more, retireNext_of_last⟩
  · rw [if_neg (ne_true_of_eq_false (entryOpen_eq_false closed))] at hexec
    have w := editWritten_grant ok.slots p it.slot
      { revision := nextRevision (s.table.slot it.slot).revision, entry := none } (removeKey it.key (s.index p)) it.key
      (some it) none ((s.retireEntry p it).retireNext p it.key last (retired + 1) skipped)
    refine ⟨_, _, hexec, w.frame, ⟨fun hmore => ?_, fun hlast => ?_⟩, w.slot, w.slots, w.index, w.index_other, w.point_other,
      w.point, w.flags⟩
    · exact retireNext_of_more ((retireEntry_above it).2 hmore)
    · refine retireNext_of_last fun o ho hko => ?_
      obtain ⟨o', ho', hko'⟩ := (retireEntry_above it).1 ⟨o, ho, hko⟩
      exact hlast o' ho' hko'

/-- Settles O54: the entry found, and whether the sweep ends. -/
theorem lookupAndSweepCopyRecords : Obligations.LookupAndSweepCopyRecords := by
  intro s p ok record
  have hrecord : ∀ it e, s.recordOf p { item := it, entry := e } = record it e := fun _ _ => rfl
  refine ⟨fun it e hm he hg => ?_, fun next copied records hg => ⟨fun hdone => ?_, fun it e hm he hk hl least => ?_⟩⟩
  all_goals have hexec := exec_accessCommand hg
  · rw [show s.runJob (.lookup p it.key) = _ from lookupAccess_of_mem ok hm he, hrecord] at hexec
    exact hexec
  · have hnone := (nextItem_eq_none_iff (s.index p) next 65535).2 fun o ho hko => absurd (hdone o ho hko.1) (by omega)
    rw [show s.runJob (.sweep p next copied records) = _ from sweepStep_done hnone] at hexec
    exact hexec
  · have hnext := nextItem_of_least (ok.ordered p) hm hk hl least
    rw [show s.runJob (.sweep p next copied records) = _ from sweepStep_of_next hnext he, hrecord] at hexec
    refine ⟨fun hroom hmore => ?_, fun hend => ?_⟩
    · rw [if_pos ⟨hroom, hmore⟩] at hexec
      exact hexec
    · rw [if_neg] at hexec
      · exact hexec
      · rintro ⟨hroom, o, ho, hko, hlo⟩
        obtain hfull | hlast := hend
        · omega
        · exact absurd (hlast o ho hko) (by omega)

/-- Settles O55: the refusing branches in the order of the checks. -/
theorem refusedAccessesChangeNothing : Obligations.RefusedAccessesChangeNothing := by
  intro s p key ok refused
  have hrefused : ∀ {j : Job} {st : Status}, s.Grants j → s.runJob j = s.refuseAccess st → refused j.accessCommand st :=
    fun hg hrun => (exec_accessCommand hg).trans (by rw [hrun]; rfl)
  refine ⟨fun nominal halfWidth hold trigger clamped hg => ⟨fun he => ?_, fun fresh => ⟨fun hfull => ?_, fun hfree => ?_⟩⟩,
    fun nominal halfWidth hold trigger clamped hg => ⟨fun habs => ?_, fun it hm hk => ⟨fun hopen => ?_, fun closed => ?_⟩⟩,
    fun habs => ⟨fun hg => hrefused hg (clearAccess_absent habs), fun hg => hrefused hg (lookupAccess_absent habs)⟩⟩
  · exact hrefused hg (loadAccess_exists (e := newEntry p key nominal halfWidth hold trigger) he)
  · exact hrefused hg (loadAccess_full (e := newEntry p key nominal halfWidth hold trigger) fresh
      ((lowestFree_eq_none_iff _).2 hfull))
  · obtain ⟨n, hn⟩ : ∃ n, s.table.lowestFree = some n := by
      refine Option.ne_none_iff_exists'.1 fun hnone => ?_
      obtain ⟨n, hn, he⟩ := hfree
      exact (lowestFree_eq_none_iff _).1 hnone n hn he
    have hrun := loadAccess_of_free (e := newEntry p key nominal halfWidth hold trigger) (clamped := clamped) fresh hn
    refine ⟨fun order => hrefused hg (hrun.trans (if_pos ((ordered_eq_false_iff _ _ _ _).2 order))),
      fun order window => ?_⟩
    exact hrefused hg (hrun.trans ((if_neg (order_passes order)).trans (if_pos ((inWindow_iff _ _ _).2 window))))
  · exact hrefused hg (amendAccess_absent habs)
  all_goals
    obtain ⟨e, he, -, -⟩ := ok.listed p it hm
    have hrun := amendAccess_of_mem (nominal := nominal) (halfWidth := halfWidth) (hold := hold) (trigger := trigger)
      (clamped := clamped) ok hm hk he
  · exact hrefused hg (hrun.trans (if_pos ((entryOpen_iff _ _).2 hopen)))
  · have hrun := hrun.trans (if_neg (ne_true_of_eq_false (entryOpen_eq_false closed)))
    refine ⟨fun order => hrefused hg (hrun.trans (if_pos ((ordered_eq_false_iff _ _ _ _).2 order))),
      fun order window => ?_⟩
    exact hrefused hg (hrun.trans ((if_neg (order_passes order)).trans (if_pos ((inWindow_iff _ _ _).2 window))))

end Sys2Proof.Proofs.Accesses

/-! FETCH and the moments of a transaction (R184, R185, R187, R190, R191, R202). -/

namespace Sys2Proof.Proofs.Fetch

open Sys2Proof.Machine

/-! ### The link status byte and the response frame (R185, R190, R202) -/

theorem statusByte_toNat (q : RequestPort) :
    q.statusByte.toNat = q.link.code + if q.discarded = true then 4 else 0 := by
  unfold RequestPort.statusByte
  cases q.link <;> cases q.discarded <;> rfl

/-- The length of a response in its two bytes (R190). -/
theorem leBytes_two (n : Nat) : leBytes 2 n = [BitVec.ofNat 8 n, BitVec.ofNat 8 (n / 256)] := by
  have hdiv : (n : Int) / 256 = ((n / 256 : Nat) : Int) := by omega
  rw [leBytes, leBytes, leBytes, hdiv, BitVec.ofInt_natCast, BitVec.ofInt_natCast]

theorem frame_eq (r : Response) :
    r.frame =
      BitVec.ofNat 8 r.status.code :: BitVec.ofNat 8 r.data.length :: BitVec.ofNat 8 (r.data.length / 256) :: r.data := by
  rw [Response.frame, leBytes_two, leBytes, leBytes, BitVec.ofInt_natCast]
  rfl

/-! ### What a FETCH is answered (R191) -/

section
variable {q : RequestPort}

theorem recognition_of_ready {r : Response} (hl : q.link = .ready) (hs : q.slot = some r) : q.recognition = .delivers r := by
  unfold RequestPort.recognition
  rw [hl, hs]

theorem recognition_of_not_delivering (h : ∀ r, ¬(q.link = .ready ∧ q.slot = some r)) : q.recognition = .notReady := by
  unfold RequestPort.recognition
  cases hl : q.link with
  | idle => rfl
  | executing => rfl
  | ready =>
    cases hs : q.slot with
    | none => rfl
    | some r => exact absurd ⟨hl, hs⟩ (h r)

theorem recognition_delivers_iff (q : RequestPort) (r : Response) :
    q.recognition = .delivers r ↔ q.link = .ready ∧ q.slot = some r :=
  ⟨Ports.recognition_delivers, fun h => recognition_of_ready h.1 h.2⟩

/-- The answer of a FETCH that ends is the one decided at its L byte, or is decided now (R191, log 8). -/
theorem recognized_delivers_iff (ht : q.transfer ≠ .ignored) (r : Response) :
    q.recognized = .delivers r ↔
      (∃ st later, q.transfer = .low st (.delivers r) later) ∨
        ((q.transfer = .high ∨ ∃ st later, q.transfer = .low st .undecided later) ∧ q.link = .ready ∧ q.slot = some r) := by
  rw [← recognition_delivers_iff]
  unfold RequestPort.recognized
  cases h : q.transfer with
  | high => simp
  | low st f later => cases f <;> simp
  | ignored => exact absurd h ht

theorem response_of_not_delivering {f : Recognition} (h : ∀ r, f ≠ .delivers r) :
    f.response = { status := .notReady, data := [] } := by
  cases f with
  | delivers r => exact absurd rfl (h r)
  | notReady => rfl
  | undecided => rfl

/-- The port after a FETCH of `n` rising edges of SCK that shifted out `r`, before the slot is emptied. -/
theorem fetched_eq {r : Response} (h : q.recognized.response = r) (n : Nat) :
    { q with sdo := q.fetchOut n, transfer := .high, discarded := false } =
      { q with
        discarded := false, transfer := .high
        sdo := (bitsOf (q.statusAtFall :: 0 :: r.frame) ++ List.replicate n false).take n } := by
  rw [RequestPort.fetchOut, h]

end

theorem exec_fetchRise {s : State} (ht : s.req.transfer ≠ .ignored) (sdi : List Bool) :
    exec (.fetch (.rise sdi)) s = .next (s.finishFetch (16 + sdi.length + s.req.later.length)) :=
  congrArg Host.Outcome.next (State.endTransfer_of ht _)

theorem finishFetch_whole {s : State} {r : Response} (h : s.req.recognized = .delivers r) {n : Nat} (hn : r.fetchEdges ≤ n) :
    s.finishFetch n =
      { s with req := { s.req with sdo := s.req.fetchOut n, transfer := .high, discarded := false } }.emptySlot := by
  unfold State.finishFetch
  rw [h]
  exact if_pos hn

theorem finishFetch_partial {s : State} {r : Response} (h : s.req.recognized = .delivers r) {n : Nat} (hn : n < r.fetchEdges) :
    s.finishFetch n = { s with req := { s.req with sdo := s.req.fetchOut n, transfer := .high, discarded := false } } := by
  unfold State.finishFetch
  rw [h]
  exact if_neg (by omega)

theorem finishFetch_notReady {s : State} (h : ∀ r, s.req.recognized ≠ .delivers r) (n : Nat) :
    s.finishFetch n = { s with req := { s.req with sdo := s.req.fetchOut n, transfer := .high, discarded := false } } :=
  (s.finishFetch_cases n).elim (fun ⟨r, hr, _⟩ => absurd hr (h r)) And.right

/-! ### The moments before the rise (R184, R185, R191, log 6) -/

section
variable {s : State}

theorem beginTransfer_of_high (h : s.req.transfer = .high) :
    s.beginTransfer = { s with req := { s.req with transfer := .low s.req.statusByte .undecided [] } } := by
  unfold State.beginTransfer
  rw [h]

theorem beginTransfer_of_not_high (h : s.req.transfer ≠ .high) : s.beginTransfer = s := by
  unfold State.beginTransfer
  cases ht : s.req.transfer with
  | high => exact absurd ht h
  | low st f later => rfl
  | ignored => rfl

theorem decideFetch_of_undecided {st : Byte} {later : List Bool} (h : s.req.transfer = .low st .undecided later) :
    s.decideFetch = { s with req := { s.req with transfer := .low st s.req.recognition later } } := by
  unfold State.decideFetch
  rw [h]

theorem decideFetch_of_decided (h : ∀ st later, s.req.transfer ≠ .low st .undecided later) : s.decideFetch = s := by
  unfold State.decideFetch
  cases ht : s.req.transfer with
  | high => rfl
  | ignored => rfl
  | low st f later =>
    cases f with
    | undecided => exact absurd ht (h st later)
    | notReady => rfl
    | delivers r => rfl

theorem runOn_of_low {st : Byte} {f : Recognition} {later : List Bool} (h : s.req.transfer = .low st f later)
    (sdi : List Bool) : s.runOn sdi = { s with req := { s.req with transfer := .low st f (later ++ sdi) } } := by
  unfold State.runOn
  rw [h]

theorem runOn_of_not_low (h : ∀ st f later, s.req.transfer ≠ .low st f later) (sdi : List Bool) : s.runOn sdi = s := by
  unfold State.runOn
  cases ht : s.req.transfer with
  | high => rfl
  | ignored => rfl
  | low st f later => exact absurd ht (h st f later)

end

/-- Settles O49: each moment by the transaction it finds; a rise by what the FETCH was answered and how far SCK ran. -/
theorem fetchDeliversTheWaitingFrame : Obligations.FetchDeliversTheWaitingFrame := by
  refine ⟨fun q => ⟨?_, fun h => ?_, fun st f later h => ?_⟩, fun r => ?_, fun s => ⟨fun h => ?_, fun h => ?_,
    fun st later h => ⟨fun r hl hs => ?_, fun hl => ?_⟩, fun h => ?_, fun sdi => ⟨fun st f later h => ?_, fun h => ?_⟩⟩, ?_⟩
  · rw [statusByte_toNat]
    cases q.link <;> rfl
  · unfold RequestPort.sdoDriven
    rw [h]
  · unfold RequestPort.sdoDriven
    rw [h]
  · rw [frame_eq]
    cases r.status <;> rfl
  · exact congrArg Host.Outcome.next (beginTransfer_of_high h)
  · exact congrArg Host.Outcome.next (beginTransfer_of_not_high h)
  · rw [← recognition_of_ready hl hs]
    exact congrArg Host.Outcome.next (decideFetch_of_undecided h)
  · rw [← recognition_of_not_delivering fun r hr => hl hr.1]
    exact congrArg Host.Outcome.next (decideFetch_of_undecided h)
  · exact congrArg Host.Outcome.next (decideFetch_of_decided h)
  · exact congrArg Host.Outcome.next (runOn_of_low h sdi)
  · exact congrArg Host.Outcome.next (runOn_of_not_low h sdi)
  · intro s sdi ht n status ended undecided delivers
    have hdelivers : ∀ r, delivers r ↔ s.req.recognized = .delivers r := fun r => (recognized_delivers_iff ht r).symm
    have hstatus : s.req.statusAtFall = status := by
      unfold RequestPort.statusAtFall
      simp only [status]
      cases s.req.transfer <;> rfl
    have hended : ∀ r, s.req.recognized.response = r →
        { s.req with sdo := s.req.fetchOut n, transfer := .high, discarded := false } = ended r := fun r h => by
      rw [fetched_eq h, hstatus]
    have hexec := exec_fetchRise ht sdi
    refine ⟨fun r hd hn => ?_, fun r hd hn => ?_, fun hd => ?_⟩
    · have hr := (hdelivers r).1 hd
      rw [finishFetch_whole hr hn, hended r (by rw [hr]; rfl)] at hexec
      exact ⟨_, hexec, rfl, fun k => Kinds.get_ofFn _ k⟩
    · have hr := (hdelivers r).1 hd
      rw [hexec, finishFetch_partial hr hn, hended r (by rw [hr]; rfl)]
    · have hr : ∀ r, s.req.recognized ≠ .delivers r := fun r h => hd r ((hdelivers r).2 h)
      rw [hexec, finishFetch_notReady hr, hended _ (response_of_not_delivering hr)]

end Sys2Proof.Proofs.Fetch

/-! Request frames: how a frame is judged, and that a request is read back from its own frame (R184, R186, R200, R203). -/

namespace Sys2Proof.Proofs.Frames

open Sys2Proof.Machine

/-! ### Fields written and read (R200) -/

section
variable {w n : Nat}

@[simp] theorem fieldAt_bytesOf_head (h : w = 8 * n) (v : BitVec w) (bs : List Byte) : fieldAt w n (bytesOf n v ++ bs) 0 = v := by
  rw [bytesOf, Fields.fieldAt_head h, BitVec.ofInt_natCast, BitVec.ofNat_toNat, BitVec.setWidth_eq]

@[simp] theorem fieldAt_bytesOf_self (h : w = 8 * n) (v : BitVec w) : fieldAt w n (bytesOf n v) 0 = v := by
  rw [bytesOf, Fields.fieldAt_self h, BitVec.ofInt_natCast, BitVec.ofNat_toNat, BitVec.setWidth_eq]

@[simp] theorem fieldAt_bytesOf_skip {k x off : Nat} (h : k ≤ off) (v : BitVec x) (bs : List Byte) :
    fieldAt w n (bytesOf k v ++ bs) off = fieldAt w n bs (off - k) := Fields.fieldAt_skip h _ bs

@[simp] theorem u8_eq (bs : List Byte) (off : Nat) : u8 bs off = fieldAt 8 1 bs off := rfl
@[simp] theorem u16_eq (bs : List Byte) (off : Nat) : u16 bs off = fieldAt 16 2 bs off := rfl
@[simp] theorem u24_eq (bs : List Byte) (off : Nat) : u24 bs off = fieldAt 24 3 bs off := rfl
@[simp] theorem u32_eq (bs : List Byte) (off : Nat) : u32 bs off = fieldAt 32 4 bs off := rfl
@[simp] theorem u48_eq (bs : List Byte) (off : Nat) : u48 bs off = fieldAt 48 6 bs off := rfl

theorem leNat_lt (bs : List Byte) : leNat bs < 2 ^ (8 * bs.length) := by
  induction bs with
  | nil => decide
  | cons b bs ih =>
    have hb := b.isLt
    rw [leNat, List.length_cons, Nat.mul_add, Nat.pow_add]
    omega

/-- The bytes of a number read from bytes are those bytes. -/
theorem leBytes_leNat {n : Nat} {bs : List Byte} (h : bs.length = n) : leBytes n (leNat bs) = bs := by
  subst h
  induction bs with
  | nil => rfl
  | cons b bs ih =>
    have hb := b.isLt
    have hlow : BitVec.ofInt 8 (leNat (b :: bs) : Int) = b := by
      rw [BitVec.ofInt_natCast, leNat]
      refine BitVec.eq_of_toNat_eq ?_
      rw [BitVec.toNat_ofNat, Nat.add_mul_mod_self_left, Nat.mod_eq_of_lt hb]
    have hhigh : (leNat (b :: bs) : Int) / 256 = (leNat bs : Int) := by
      rw [leNat]
      omega
    rw [List.length_cons, leBytes, hlow, hhigh, ih]

/-- A field read and written again is the bytes it was read from. -/
theorem bytesOf_fieldAt (h : w = 8 * n) {bs : List Byte} {off : Nat} (hlen : off + n ≤ bs.length) :
    bytesOf n (fieldAt w n bs off) = (bs.drop off).take n := by
  have hn : ((bs.drop off).take n).length = n := by
    rw [List.length_take, List.length_drop]
    omega
  have hlt := leNat_lt ((bs.drop off).take n)
  rw [hn, ← h] at hlt
  rw [bytesOf, fieldAt, BitVec.toNat_ofNat, Nat.mod_eq_of_lt hlt, leBytes_leNat hn]

theorem bytesOf_fieldAt_append_drop (h : w = 8 * n) {bs : List Byte} {off next : Nat} (hlen : off + n ≤ bs.length)
    (hnext : next = off + n) : bytesOf n (fieldAt w n bs off) ++ bs.drop next = bs.drop off := by
  rw [bytesOf_fieldAt h hlen, hnext, ← List.drop_drop, List.take_append_drop]

theorem bytesOf_fieldAt_last (h : w = 8 * n) {bs : List Byte} {off : Nat} (hlen : bs.length = off + n) :
    bytesOf n (fieldAt w n bs off) = bs.drop off := by
  rw [bytesOf_fieldAt h hlen.ge, List.take_of_length_le]
  rw [List.length_drop]
  omega

end

/-! ### How a frame is judged (R186) -/

section
variable {sdi : List Bool} {code l : Byte} {rest : List Byte} {n : Nat}

theorem judgeFrame_statusRead (h : sdi.length < 16) : judgeFrame sdi = .statusRead := by
  have hlen := completeBytes_length sdi
  unfold judgeFrame
  match hb : completeBytes sdi with
  | [] => rfl
  | [_] => rfl
  | _ :: _ :: _ =>
    rw [hb, List.length_cons, List.length_cons] at hlen
    omega

theorem judgeFrame_unknown (hb : completeBytes sdi = code :: l :: rest) (hn : requestLength code.toNat = none) :
    judgeFrame sdi = .malformed := by
  simp only [judgeFrame, hb, hn]

theorem judgeFrame_wrongLength (hb : completeBytes sdi = code :: l :: rest) (hn : requestLength code.toNat = some n)
    (hl : l.toNat ≠ n) : judgeFrame sdi = .malformed := by
  simp only [judgeFrame, hb, hn, ne_eq, hl, not_false_eq_true, if_true]

theorem judgeFrame_short (hb : completeBytes sdi = code :: l :: rest) (hn : requestLength code.toNat = some n)
    (hl : l.toNat = n) (hr : rest.length < n) : judgeFrame sdi = .short := by
  simp only [judgeFrame, hb, hn, ne_eq, hl, not_true_eq_false, if_false, hr, if_true]

theorem judgeFrame_fetch (hb : completeBytes sdi = code :: l :: rest) (hl : l.toNat = 0) (hc : code.toNat = 0) :
    judgeFrame sdi = .request (.fetch (.rise (sdi.drop 16))) := by
  have hn : requestLength 0 = some 0 := rfl
  simp only [judgeFrame, hb, hc, hn, ne_eq, hl, not_true_eq_false, if_false, if_true, Nat.not_lt_zero]

theorem judgeFrame_request (hb : completeBytes sdi = code :: l :: rest) (hn : requestLength code.toNat = some n)
    (hl : l.toNat = n) (hr : n ≤ rest.length) (hc : code.toNat ≠ 0) {i : Instr}
    (hi : requestOf code.toNat (rest.take n) = some i) : judgeFrame sdi = .request i := by
  simp only [judgeFrame, hb, hn, ne_eq, hl, not_true_eq_false, if_false, Nat.not_lt.2 hr, hc, hi]

end

/-! ### The frame of a request (R203) -/

/-- The request `i` is no FETCH, and `code`, `l` and `ps` are its frame, from which it is read back. -/
structure FrameOf (i : Instr) (code l : Byte) (ps : List Byte) : Prop where
  encoded : encodeFrame i = some (bitsOf (code :: l :: ps))
  code_ne : code.toNat ≠ 0
  length : requestLength code.toNat = some l.toNat
  parameters : ps.length = l.toNat
  read : requestOf code.toNat ps = some i

/-- A request is read from its frame, whatever follows it. -/
theorem FrameOf.judged {i : Instr} {code l : Byte} {ps : List Byte} (h : FrameOf i code l ps) (later : List Bool) :
    judgeFrame (bitsOf (code :: l :: ps) ++ later) = .request i := by
  have hb : completeBytes (bitsOf (code :: l :: ps) ++ later) = code :: l :: (ps ++ completeBytes later) :=
    completeBytes_bitsOf_append _ _
  refine judgeFrame_request hb h.length rfl ?_ h.code_ne ?_
  · rw [List.length_append, h.parameters]
    omega
  · rw [List.take_append_of_le_length h.parameters.ge, List.take_of_length_le h.parameters.le, h.read]

/-- Every request but FETCH has a frame, and is read back from it: its fields stand one after the other. -/
theorem frameOf_request {i : Instr} {sdi : List Bool} (h : encodeFrame i = some sdi) (hf : isFetch i = false) :
    ∃ code l ps, FrameOf i code l ps := by
  cases i with
  | fetch m => cases hf
  | configureAxis | presetAxis | readAxes | supplyMedium | setCommitPolicy | forceCommit | setTimer | configurePoint | startScan
  | stopScan | acknowledgeHalt | loadEntry | amendEntry | clearEntry | retireEntries | lookupEntry | sweepEntries | readStatus
  | takeNotices | setRoutes | restart =>
    exact ⟨_, _, _, rfl, by decide, rfl, by simp, congrArg some (by simp [u32s])⟩
  | _ => cases h

theorem FrameOf.of_read {i : Instr} {code l : Byte} {ps qs : List Byte} (hc : code.toNat ≠ 0)
    (hn : requestLength code.toNat = some l.toNat) (hp : ps.length = l.toNat) (hread : requestOf code.toNat ps = some i)
    (henc : encodeFrame i = some (bitsOf (code :: l :: qs))) (hq : qs = ps) : FrameOf i code l ps :=
  ⟨hq ▸ henc, hc, hn, hp, hread⟩

theorem byte_of_toNat {b : Byte} {n : Nat} (h : b.toNat = n) : b = BitVec.ofNat 8 n := by
  rw [← h, BitVec.ofNat_toNat, BitVec.setWidth_eq]

/-- A code, its L and L bytes are the frame of some request: its fields, written again, are the bytes they were read from. -/
theorem frameOf_bytes {code l : Byte} {ps : List Byte} (hn : requestLength code.toNat = some l.toNat)
    (hp : ps.length = l.toNat) (hc : code.toNat ≠ 0) : ∃ i, isFetch i = false ∧ FrameOf i code l ps := by
  have hrow := hn
  unfold requestLength at hrow
  split at hrow
  case h_1 h => exact absurd h hc
  case h_23 => cases hrow
  all_goals
    next h =>
      cases byte_of_toNat h
      cases byte_of_toNat (Option.some.inj hrow).symm
      refine ⟨_, rfl, .of_read hc hn hp rfl rfl ?_⟩
      simp only [u8_eq, u16_eq, u24_eq, u32_eq, u48_eq, u32s, List.append_eq, List.append_assoc,
        bytesOf_fieldAt_last, bytesOf_fieldAt_append_drop, List.drop_zero, hp, BitVec.reduceToNat, Nat.reduceMul,
        Nat.reduceAdd, Nat.reduceLeDiff, List.eq_nil_iff_length_eq_zero, eq_comm (a := [])]

end Sys2Proof.Proofs.Frames

/-! The port and the frames that cross it: requests are read back from their frames, and frames are discarded, flagged and counted
(R184 to R187, R199). -/

namespace Sys2Proof.Proofs.Frames

open Sys2Proof.Machine

/-! ### Reading back (R184, R186) -/

theorem isFetch_iff (i : Instr) : isFetch i = true ↔ ∃ m, i = .fetch m := by
  cases i <;> simp [isFetch]

/-- A FETCH is read from its two bytes, with what follows them. -/
theorem judgeFrame_fetchFrame (rest : List Byte) (bits : List Bool) :
    judgeFrame (bitsOf (0x00 :: 0 :: rest) ++ bits) = .request (.fetch (.rise (bitsOf rest ++ bits))) :=
  judgeFrame_fetch (completeBytes_bitsOf_append _ _) rfl rfl

/-- Settles O50: a FETCH keeps what follows its two bytes; any other request is read from its own frame, whatever follows it. -/
theorem framesReadBackTheirRequests : Obligations.FramesReadBackTheirRequests := by
  intro i sdi _ henc
  cases hf : isFetch i with
  | true =>
    obtain ⟨m, rfl⟩ := (isFetch_iff i).1 hf
    cases m with
    | rise bits =>
      cases henc
      refine ⟨judgeFrame_fetchFrame [] bits, nofun, fun bits' later hi => ?_⟩
      cases hi
      rw [List.append_assoc]
      exact judgeFrame_fetchFrame [] (bits ++ later)
    | fall => cases henc
    | lByte => cases henc
    | runOn _ => cases henc
  | false =>
    obtain ⟨code, l, ps, frame⟩ := frameOf_request henc hf
    cases henc.symm.trans frame.encoded
    refine ⟨?_, fun _ => frame.judged, fun bits later hi => ?_⟩
    · have h := frame.judged []
      rwa [List.append_nil] at h
    · rw [hi] at hf
      cases hf

/-! ### How the port takes a request (R186, R189, R199) -/

/-- Every request but FETCH passes through the port with the length of its frame. -/
theorem exec_request {i : Instr} {sdi : List Bool} (h : encodeFrame i = some sdi) (hf : isFetch i = false) (s : State) :
    ∃ len act, exec i s = .next (s.request len act) ∧ sdi.length = 8 * (len + 2) := by
  cases i with
  | fetch m => cases hf
  | configureAxis | presetAxis | readAxes | supplyMedium | setCommitPolicy | forceCommit | setTimer | configurePoint | startScan
  | stopScan | acknowledgeHalt | loadEntry | amendEntry | clearEntry | retireEntries | lookupEntry | sweepEntries | readStatus
  | takeNotices | setRoutes | restart =>
    cases h
    exact ⟨_, _, rfl, by simp⟩
  | _ => cases h

theorem request_of_busy {s : State} (hl : s.req.link ≠ .idle) (ht : s.req.transfer ≠ .ignored) (len : Nat)
    (act : State → State) : s.request len act = (s.shiftOut (s.req.frameEdges len)).discard := by
  rcases s.request_cases len act with ⟨h, -⟩ | ⟨h, -⟩ | ⟨-, -, h⟩
  · exact absurd h ht
  · exact absurd h.1 hl
  · exact h

theorem request_of_ignored {s : State} (ht : s.req.transfer = .ignored) (len : Nat) (act : State → State) :
    s.request len act = s.endIgnored := by
  rcases s.request_cases len act with ⟨-, h⟩ | ⟨h, -⟩ | ⟨-, h, -⟩
  · exact h
  · exact absurd ht h.2
  · exact absurd ht h

theorem endTransfer_of_ignored {s : State} (ht : s.req.transfer = .ignored) (act : State → State) :
    s.endTransfer act = s.endIgnored := by
  rcases s.endTransfer_cases act with ⟨-, h⟩ | ⟨h, -⟩
  · exact h
  · exact absurd ht h

theorem shiftOut_discard (s : State) (n : Nat) : (s.shiftOut n).discard = s.busyDiscarded n := by
  rw [State.shiftOut_eq, State.discard, bump16_eq_min]
  rfl

theorem shiftOut_discardMalformed (s : State) (n : Nat) :
    (s.shiftOut n).discardMalformed =
      { s with
        req :=
          { s.req.ended n with
            discarded := true, malformedCount := min 65535 ((s.req.ended n).malformedCount + 1) } } := by
  rw [State.shiftOut_eq, State.discardMalformed, bump16_eq_min]

/-! ### FRAME_DISCARDED (R185 to R187, log 9) -/

section
variable {s : State} {sdi : List Bool}

theorem exec_frameDiscarded (ht : s.req.transfer ≠ .ignored) (bits : List Bool) :
    exec (.frameDiscarded bits) s = .next (s.endFrame (bits ++ s.req.later)) :=
  congrArg Host.Outcome.next (State.endTransfer_of ht _)

theorem endFrame_statusRead (h : judgeFrame sdi = .statusRead) : s.endFrame sdi = s.shiftOut sdi.length := by
  unfold State.endFrame
  rw [h]

theorem endFrame_malformed (h : judgeFrame sdi = .malformed) : s.endFrame sdi = (s.shiftOut sdi.length).discardMalformed := by
  unfold State.endFrame
  rw [h]

theorem endFrame_short (h : judgeFrame sdi = .short) : s.endFrame sdi = (s.shiftOut sdi.length).discard := by
  unfold State.endFrame
  rw [h]

theorem isIdle_iff (l : LinkState) : l.isIdle = true ↔ l = .idle := by cases l <;> simp [LinkState.isIdle]

theorem endFrame_busy {i : Instr} (h : judgeFrame sdi = .request i) (hf : isFetch i = false) (hl : s.req.link ≠ .idle) :
    s.endFrame sdi = (s.shiftOut sdi.length).discard := by
  rw [ne_eq, ← isIdle_iff, Bool.not_eq_true] at hl
  unfold State.endFrame
  simp only [h, hf, hl, Bool.or_self, Bool.false_eq_true, if_false]

theorem endFrame_taken {i : Instr} (h : judgeFrame sdi = .request i) (ht : isFetch i = true ∨ s.req.link = .idle) :
    s.endFrame sdi = s := by
  rw [← isIdle_iff, ← Bool.or_eq_true] at ht
  unfold State.endFrame
  simp only [h, ht, if_true]

end

/-! ### Complete bytes (R184) -/

theorem getElem_byteBits (b : Byte) {k : Nat} (hk : k < 8) : (byteBits b)[k]? = some (b.getLsbD (7 - k)) := by
  interval_cases k <;> rfl

theorem completeBytes_of_tail {tail : List Bool} (h : tail.length < 8) (bytes : List Byte) :
    completeBytes (bitsOf bytes ++ tail) = bytes := by
  rw [completeBytes_bitsOf_append, completeBytes_of_lt h, List.append_nil]

/-- What ends at an ignored transaction: a request, a FETCH or a discarded frame (R199). -/
theorem exec_of_ignored {s : State} (ht : s.req.transfer = .ignored) {c : Instr}
    (hc : (∃ sdi, encodeFrame c = some sdi) ∨ ∃ sdi, c = .frameDiscarded sdi) : exec c s = .next s.endIgnored := by
  rcases hc with ⟨sdi, henc⟩ | ⟨sdi, rfl⟩
  · cases hf : isFetch c with
    | false =>
      obtain ⟨len, act, hexec, -⟩ := exec_request henc hf s
      rw [hexec, request_of_ignored ht]
    | true =>
      obtain ⟨m, rfl⟩ := (isFetch_iff c).1 hf
      cases m with
      | rise bits => exact congrArg Host.Outcome.next (endTransfer_of_ignored ht _)
      | fall => cases henc
      | lByte => cases henc
      | runOn _ => cases henc
  · exact congrArg Host.Outcome.next (endTransfer_of_ignored ht _)

/-- Settles O48: the bytes, the busy link, the judgement of a frame, its consequence, and the ignored transaction. -/
theorem discardedFramesAreFlaggedAndCounted : Obligations.DiscardedFramesAreFlaggedAndCounted := by
  refine ⟨⟨fun b k hk => getElem_byteBits b hk, fun bytes tail h => completeBytes_of_tail h bytes⟩,
    fun s i sdi henc hf hl ht => ?_, fun code l rest tail hlt => ?_, fun s bits ht => ?_,
    fun s ht => ⟨s.endIgnored.req.sdo, fun c hc => ?_⟩⟩
  · obtain ⟨len, act, hexec, hlen⟩ := exec_request henc hf s
    rw [hexec, request_of_busy hl ht, shiftOut_discard, hlen]
    rfl
  · have hb := completeBytes_of_tail hlt (code :: l :: rest)
    refine ⟨fun hn => judgeFrame_unknown hb hn, fun n hn hl => judgeFrame_wrongLength hb hn hl,
      fun n hn hl hr => judgeFrame_short hb hn hl hr, fun n hn hl hr hc => ?_, fun hl hc => judgeFrame_fetch hb hl hc⟩
    subst hl
    obtain ⟨i, hf, frame⟩ := frameOf_bytes (ps := rest.take l.toNat) hn (by rw [List.length_take, min_eq_left hr]) hc
    exact ⟨i, judgeFrame_request hb hn rfl hr hc frame.read, hf, frame.encoded⟩
  · have hexec := exec_frameDiscarded ht bits
    refine ⟨fun h => ?_, fun h => ?_, fun i h hf hl => ?_, fun h => ?_, fun i h htaken => ?_⟩
    · rw [hexec, endFrame_malformed h, shiftOut_discardMalformed]
    · rw [hexec, endFrame_short h, shiftOut_discard]
      rfl
    · rw [hexec, endFrame_busy h hf hl, shiftOut_discard]
      rfl
    · rw [hexec, endFrame_statusRead (judgeFrame_statusRead h), State.shiftOut_eq]
    · rw [hexec, endFrame_taken h htaken]
  · exact exec_of_ignored ht hc

end Sys2Proof.Proofs.Frames
